-- ==== Sys2Proof/Word.lean ====
section
/-! DEFINITION. The word types of the CW1 and their plainest arithmetic (R3, R30). -/

namespace Sys2Proof

/-- One byte of any memory. -/
abbrev Byte := BitVec 8

/-- A scalar queue entry, a predicate, a 64-bit register. -/
abbrev W64 := BitVec 64

/-- A 64-byte vector (R131) or tensor descriptor (R254). -/
abbrev V512 := BitVec 512

end Sys2Proof
end

