-- ==== Sys2Proof/Syntax.lean ====
section
/-! DEFINITION. The instruction type: one constructor per row of the operation table, and the
field records of the slot formats (R60, R67 to R70), the commands (R316 to R325) and the outside inputs. -/

namespace Sys2Proof

/-- The six slot positions of a bundle, in slot order (R54, R100). -/
inductive Pos where
  | sc | va | vb | mx | ca | cb
  deriving DecidableEq, Repr

/-- What issues bundles: a core by physical id, or one thread of a lantern pair (pair id = 64 * dome + n). -/
inductive Agent where
  | core (c : Nat)
  | lanA (p : Nat)
  | lanE (p : Nat)
  deriving DecidableEq, Repr

/-- A synchronised group (R349): one open-mode core, the group of a deterministic launch, or one lantern
pair on its own (R311). -/
inductive Group where
  | core (c : Nat)
  | launch (n : Nat)
  | pair (p : Nat)
  deriving DecidableEq, Repr

/-- The slot prefix of R60 (its opcode is the constructor), with the position the slot stands at. -/
structure Pre where
  pos   : Pos
  hold  : Bool
  pred  : BitVec 4
  sense : Bool
  deriving DecidableEq, Repr

/-- SC format S3 (R67). -/
structure FmtS3 where
  xd : BitVec 6
  xa : BitVec 6
  xb : BitVec 6
  pa : Bool
  pb : Bool
  sz : BitVec 2
  pc : BitVec 4
  deriving DecidableEq, Repr

/-- SC format SI (R67). -/
structure FmtSI where
  xd : BitVec 6
  xa : BitVec 6
  pa : Bool
  sz : BitVec 2
  imm : BitVec 24
  deriving DecidableEq, Repr

/-- SC format SL (R67). -/
structure FmtSL where
  xd : BitVec 6
  imm : BitVec 32
  deriving DecidableEq, Repr

/-- SC format SQ (R67). -/
structure FmtSQ where
  pd : BitVec 4
  xa : BitVec 6
  xb : BitVec 6
  pa : Bool
  pb : Bool
  sz : BitVec 2
  deriving DecidableEq, Repr

/-- SC format SP (R67). -/
structure FmtSP where
  pd : BitVec 4
  pa : BitVec 4
  pb : BitVec 4
  ia : Bool
  ib : Bool
  x : BitVec 6
  px : Bool
  deriving DecidableEq, Repr

/-- SC format SJ (R67). -/
structure FmtSJ where
  target : BitVec 24
  xa : BitVec 6
  pa : Bool
  nd : BitVec 3
  deriving DecidableEq, Repr

/-- SC format SK (R67). -/
structure FmtSK where
  x : BitVec 6
  pa : Bool
  cr : BitVec 8
  idx : BitVec 8
  deriving DecidableEq, Repr

/-- SC format SK of a WRCR, whose cr field picks the row (R128). -/
structure FmtSW where
  x : BitVec 6
  pa : Bool
  idx : BitVec 8
  deriving DecidableEq, Repr

/-- SC format SN (R67). -/
structure FmtSN where
  bell : BitVec 3
  pd : BitVec 4
  code : BitVec 8
  deriving DecidableEq, Repr

/-- Vector format V2 (R68). -/
structure FmtV2 where
  vd : BitVec 11
  va : BitVec 11
  vb : BitVec 11
  pa : Bool
  pb : Bool
  ty : BitVec 4
  rm : BitVec 2
  aux : BitVec 10
  deriving DecidableEq, Repr

/-- Vector format V3 (R68). -/
structure FmtV3 where
  vd : BitVec 11
  va : BitVec 11
  vb : BitVec 11
  vc : BitVec 11
  ty : BitVec 4
  rm : BitVec 2
  pa : Bool
  deriving DecidableEq, Repr

/-- MX format MF (R69). -/
structure FmtMF where
  routine : BitVec 8
  ra : BitVec 3
  rb : BitVec 3
  deriving DecidableEq, Repr

/-- MX format MK with vs = 0 (R69, R156). -/
structure FmtMK where
  kj : BitVec 3
  xa : BitVec 6
  pa : Bool
  deriving DecidableEq, Repr

/-- MX format MK with vs = 1 (R69, R156). -/
structure FmtMA where
  vq : BitVec 11
  pv : Bool
  deriving DecidableEq, Repr

/-- MX format MR (R69). -/
structure FmtMR where
  ring : BitVec 3
  xa : BitVec 6
  pa : Bool
  count : BitVec 12
  deriving DecidableEq, Repr

/-- MX format MD (R69). -/
structure FmtMD where
  fmt : BitVec 3
  xa : BitVec 6
  pa : Bool
  rm : BitVec 2
  deriving DecidableEq, Repr

/-- MX format MT (R69). -/
structure FmtMT where
  dd : BitVec 4
  ds1 : BitVec 4
  ds2 : BitVec 4
  aux : BitVec 8
  xt : BitVec 6
  pt : Bool
  deriving DecidableEq, Repr

/-- Channel format CL (R70). -/
structure FmtCL where
  reg : BitVec 11
  sp : BitVec 3
  xa : BitVec 6
  pa : Bool
  nx : Bool
  sz : BitVec 3
  off : BitVec 18
  deriving DecidableEq, Repr

/-- Channel format CH (R70). -/
structure FmtCH where
  reg : BitVec 11
  h : BitVec 5
  xo : BitVec 6
  po : Bool
  lat : BitVec 9
  sz : BitVec 3
  nx : Bool
  disp : BitVec 7
  deriving DecidableEq, Repr

/-- Channel format CA (R70). -/
structure FmtCA where
  xd : BitVec 6
  h : BitVec 5
  xo : BitVec 6
  xv : BitVec 6
  xc : BitVec 6
  lat : BitVec 9
  wd : Bool
  nr : Bool
  pk : BitVec 3
  deriving DecidableEq, Repr

/-- Channel format CF (R70): the order bits load-load, load-store, store-load, store-store from bit 3 down. -/
structure FmtCF where
  kind : BitVec 4
  deriving DecidableEq, Repr

/-- Channel format CE (R70). -/
structure FmtCE where
  eng : Bool
  hs : BitVec 5
  hd : BitVec 5
  xr : BitVec 6
  pr : Bool
  acq : Bool
  rel : Bool
  xt : BitVec 6
  xs : BitVec 6
  ps : Bool
  deriving DecidableEq, Repr

/-- Channel format CT (R70). -/
structure FmtCT where
  h : BitVec 5
  xa : BitVec 6
  pa : Bool
  pd : BitVec 4
  lg : Bool
  deriving DecidableEq, Repr

/-- Who claims a tile (R273): lantern n of the home dome, or a rise-pool core. -/
inductive Claimant where
  | lantern (n : Nat)
  | pool (c : Nat)
  deriving DecidableEq, Repr

/-- What the reduction switch brings to one step of a collective (R407, R408): every rank's contribution
in ascending rank order, the root rank, and the digest that each rank has sent back. -/
structure SwitchInput where
  ranks : List (List Byte)
  root : Nat
  digests : List W64
  deriving DecidableEq, Repr

/-- A request that arrives from a peer panel (R403): the slot it comes from, the physical address here,
and what it does (a read of n bytes, a write, or an atomic of R227 by opcode). -/
inductive PeerReq where
  | read (k pa n : Nat)
  | write (k pa : Nat) (bs : List Byte)
  | atomic (k pa : Nat) (op : BitVec 7) (wide : Bool) (v cmp : W64)
  | swapv (k pa : Nat) (v : V512)
  | waitv (k pa cond : Nat) (wide : Bool) (v : W64)
  | lease (k pa cl : Nat)
  | recall (k pa : Nat) (large : Bool)
  | refuse (k pa : Nat)
  deriving DecidableEq, Repr

/-- A monitor (R374): of a spire, or of a dome. -/
inductive MonAddr where
  | spire (sp m : Nat)
  | dome (d m : Nat)
  deriving DecidableEq, Repr

/-- Where an uncorrectable error strikes (R169, R182, R198): a dome block or a CLM unit by physical
address, a scratchpad unit of a core (sp 0 to 3), a dictionary entry of a core, or lantern memory. -/
inductive EccSite where
  | phys (pa : Nat)
  | scratch (c sp off : Nat)
  | dict (c entry : Nat)
  | lantern (p off : Nat)
  deriving DecidableEq, Repr

/-- What one Chimelink port holds (R402): nothing, a peer panel, or a reduction switch configured with
R ranks, of which this panel is rank r (R406). -/
inductive PortKind where
  | none
  | peer
  | switch (ranks rank : Nat)
  deriving DecidableEq, Repr

/-- A page that the page table maps once bring-up has set PTROOT (R332, R413). -/
structure BootPage where
  va : Nat
  pa : Nat
  large : Bool
  read : Bool
  write : Bool
  deriving DecidableEq, Repr

/-- What bring-up reads and measures (R413, R414): the boot configuration's LCAP values and its stored
hash, the live map, the largest adder observed at each crossing, the offset of each region, the
Chimelink ports, the pages that the firmware's page table maps from the start, and the spires that are throttled or drained, of
which no rule says what makes them so (R328). -/
structure BringUp where
  flash : List Byte
  liveCore : List W64
  liveLant : List W64
  adders : List Nat
  toffs : List W64
  ports : List PortKind
  pages : List BootPage
  noLead : List Nat
  deriving DecidableEq, Repr

/-- A command header (R316) with the queue and slot number the command came from. -/
structure CmdHdr where
  q : Nat
  slot : Nat
  op : BitVec 8
  wantRec : Bool
  after : Bool
  utag : BitVec 32
  deriving DecidableEq, Repr

/-- LAUNCH payload (R318). -/
structure LaunchCmd where
  image : Nat
  base : Nat
  gx : Nat
  gy : Nat
  det : Bool
  resume : Bool
  spillovf : Nat
  larg : W64
  ldome : Nat
  ndome : Nat
  ctx : Nat
  deriving DecidableEq, Repr

/-- TOP payload (R319). -/
structure TopCmd where
  opc : Nat
  aux : BitVec 8
  dd : Nat
  ds1 : Nat
  ds2 : Nat
  deriving DecidableEq, Repr

/-- COPY payload (R320). -/
structure CopyCmd where
  src : Nat
  dst : Nat
  len : Nat
  deriving DecidableEq, Repr

/-- WAITEV payload (R321). -/
structure WaitevCmd where
  counter : Nat
  value : W64
  deriving DecidableEq, Repr

/-- SIGNAL payload (R321). -/
structure SignalCmd where
  counter : Nat
  value : W64
  store : Bool
  deriving DecidableEq, Repr

/-- MAP, UNMAP and MIGRATE payload (R322); `target` is MAP's first physical page or MIGRATE's dome. -/
structure PagesCmd where
  va : Nat
  count : Nat
  large : Bool
  read : Bool
  write : Bool
  target : Nat
  deriving DecidableEq, Repr

/-- BALLOON payload (R323). -/
structure BalloonCmd where
  dome : Nat
  page : Nat
  count : Nat
  deriving DecidableEq, Repr

/-- SETMODE payload (R324). -/
structure SetmodeCmd where
  spire : Nat
  value : Nat
  deriving DecidableEq, Repr

/-- PREEMPT payload (R325). -/
structure PreemptCmd where
  queue : Nat
  slot : Nat
  deriving DecidableEq, Repr

/-- One constructor per row of the operation table: slot instructions, bundle marks, matrix
microinstructions, commands, and the steps the panel's other agents and the outside world take. -/
inductive Instr where
  /-- LAUNCH (R318). -/
  | launch (h : CmdHdr) (f : LaunchCmd)
  /-- LAUNCH_RESUME (R391). -/
  | launchResume (h : CmdHdr) (f : LaunchCmd)
  /-- TOP (R319). -/
  | top (h : CmdHdr) (f : TopCmd)
  /-- COPY (R320). -/
  | copy (h : CmdHdr) (f : CopyCmd)
  /-- WAITEV (R321). -/
  | waitev (h : CmdHdr) (f : WaitevCmd)
  /-- SIGNAL (R321). -/
  | signal (h : CmdHdr) (f : SignalCmd)
  /-- MAP (R322). -/
  | mapPages (h : CmdHdr) (f : PagesCmd)
  /-- UNMAP (R322). -/
  | unmap (h : CmdHdr) (f : PagesCmd)
  /-- MIGRATE (R341). -/
  | migrate (h : CmdHdr) (f : PagesCmd)
  /-- BALLOON_DONATE (R202). -/
  | balloonDonate (h : CmdHdr) (f : BalloonCmd)
  /-- BALLOON_RECLAIM (R323). -/
  | balloonReclaim (h : CmdHdr) (f : BalloonCmd)
  /-- SETMODE_RISE_POOL (R324). -/
  | setmodeRisePool (h : CmdHdr) (f : SetmodeCmd)
  /-- SETMODE_COALESCE (R324). -/
  | setmodeCoalesce (h : CmdHdr) (f : SetmodeCmd)
  /-- SETMODE_POWER_LIMIT (R373). -/
  | setmodePowerLimit (h : CmdHdr) (f : SetmodeCmd)
  /-- FENCE_COMMAND (R325). -/
  | fenceCommand (h : CmdHdr)
  /-- COMPLETE (R325). -/
  | complete (h : CmdHdr)
  /-- PREEMPT (R387). -/
  | preempt (h : CmdHdr) (f : PreemptCmd)
  /-- NOP (R112). -/
  | nop (p : Pre)
  /-- MOV (R112). -/
  | mov (p : Pre) (f : FmtS3)
  /-- MOVI (R112). -/
  | movi (p : Pre) (f : FmtSL)
  /-- MOVIZ (R112). -/
  | moviz (p : Pre) (f : FmtSL)
  /-- MOVIH (R112). -/
  | movih (p : Pre) (f : FmtSL)
  /-- SEL (R112). -/
  | sel (p : Pre) (f : FmtS3)
  /-- ADD (R113). -/
  | add (p : Pre) (f : FmtS3)
  /-- SUB (R113). -/
  | sub (p : Pre) (f : FmtS3)
  /-- MUL (R113). -/
  | mul (p : Pre) (f : FmtS3)
  /-- MULH (R113). -/
  | mulh (p : Pre) (f : FmtS3)
  /-- MULHN (R113). -/
  | mulhn (p : Pre) (f : FmtS3)
  /-- DIV (R114). -/
  | div (p : Pre) (f : FmtS3)
  /-- DIVN (R114). -/
  | divn (p : Pre) (f : FmtS3)
  /-- REM (R114). -/
  | rem (p : Pre) (f : FmtS3)
  /-- REMN (R114). -/
  | remn (p : Pre) (f : FmtS3)
  /-- MIN (R113). -/
  | min (p : Pre) (f : FmtS3)
  /-- MAX (R113). -/
  | max (p : Pre) (f : FmtS3)
  /-- MINN (R113). -/
  | minn (p : Pre) (f : FmtS3)
  /-- MAXN (R113). -/
  | maxn (p : Pre) (f : FmtS3)
  /-- ABS (R113). -/
  | abs (p : Pre) (f : FmtS3)
  /-- AND (R113). -/
  | and (p : Pre) (f : FmtS3)
  /-- OR (R113). -/
  | or (p : Pre) (f : FmtS3)
  /-- XOR (R113). -/
  | xor (p : Pre) (f : FmtS3)
  /-- ANDN (R113). -/
  | andn (p : Pre) (f : FmtS3)
  /-- CLZ (R113). -/
  | clz (p : Pre) (f : FmtS3)
  /-- CTZ (R113). -/
  | ctz (p : Pre) (f : FmtS3)
  /-- POPC (R113). -/
  | popc (p : Pre) (f : FmtS3)
  /-- SHL (R113). -/
  | shl (p : Pre) (f : FmtS3)
  /-- SHR (R113). -/
  | shr (p : Pre) (f : FmtS3)
  /-- SAR (R113). -/
  | sar (p : Pre) (f : FmtS3)
  /-- ROR (R113). -/
  | ror (p : Pre) (f : FmtS3)
  /-- ADDI (R115). -/
  | addi (p : Pre) (f : FmtSI)
  /-- ANDI (R115). -/
  | andi (p : Pre) (f : FmtSI)
  /-- ORI (R115). -/
  | ori (p : Pre) (f : FmtSI)
  /-- XORI (R115). -/
  | xori (p : Pre) (f : FmtSI)
  /-- SHLI (R115). -/
  | shli (p : Pre) (f : FmtSI)
  /-- SHRI (R115). -/
  | shri (p : Pre) (f : FmtSI)
  /-- SARI (R115). -/
  | sari (p : Pre) (f : FmtSI)
  /-- CMPEQ (R116). -/
  | cmpeq (p : Pre) (f : FmtSQ)
  /-- CMPNE (R116). -/
  | cmpne (p : Pre) (f : FmtSQ)
  /-- CMPLT (R116). -/
  | cmplt (p : Pre) (f : FmtSQ)
  /-- CMPLE (R116). -/
  | cmple (p : Pre) (f : FmtSQ)
  /-- CMPLTN (R116). -/
  | cmpltn (p : Pre) (f : FmtSQ)
  /-- CMPLEN (R116). -/
  | cmplen (p : Pre) (f : FmtSQ)
  /-- PAND (R117). -/
  | pand (p : Pre) (f : FmtSP)
  /-- POR (R117). -/
  | por (p : Pre) (f : FmtSP)
  /-- PXOR (R117). -/
  | pxor (p : Pre) (f : FmtSP)
  /-- PNOT (R117). -/
  | pnot (p : Pre) (f : FmtSP)
  /-- PSET (R117). -/
  | pset (p : Pre) (f : FmtSP)
  /-- PGET (R117). -/
  | pget (p : Pre) (f : FmtSP)
  /-- BR (R118). -/
  | br (p : Pre) (f : FmtSJ)
  /-- BRX (R119). -/
  | brx (p : Pre) (f : FmtSJ)
  /-- CALL (R120). -/
  | call (p : Pre) (f : FmtSJ)
  /-- RET (R120). -/
  | ret (p : Pre)
  /-- LSET (R123). -/
  | lset (p : Pre) (f : FmtSK)
  /-- LRUN (R124). -/
  | lrun (p : Pre) (f : FmtSJ)
  /-- RDCR (R127). -/
  | rdcr (p : Pre) (f : FmtSK)
  /-- WRCR_UIVEC (R128). -/
  | wrcrUivec (p : Pre) (f : FmtSW)
  /-- WRCR_UISTAT (R128). -/
  | wrcrUistat (p : Pre) (f : FmtSW)
  /-- TRAP (R129). -/
  | trap (p : Pre) (f : FmtSN)
  /-- UIRET (R130). -/
  | uiret (p : Pre)
  /-- BELL (R366). -/
  | bell (p : Pre) (f : FmtSN)
  /-- BWAIT (R365). -/
  | bwait (p : Pre) (f : FmtSN)
  /-- BTEST (R365). -/
  | btest (p : Pre) (f : FmtSN)
  /-- BEXCUSE (R364). -/
  | bexcuse (p : Pre) (f : FmtSN)
  /-- RESTART_MARK (R379). -/
  | restartMark
  /-- END (R23). -/
  | endBundle
  /-- QUIET_BEGIN (R108). -/
  | quietBegin
  /-- QUIET_END (R109). -/
  | quietEnd
  /-- REGION_OVERRUN (R108). -/
  | regionOverrun
  /-- VNOP (R136). -/
  | vnop (p : Pre)
  /-- VMOV (R136). -/
  | vmov (p : Pre) (f : FmtV2)
  /-- VSEL (R136). -/
  | vsel (p : Pre) (f : FmtV3)
  /-- VADD (R137). -/
  | vadd (p : Pre) (f : FmtV2)
  /-- VSUB (R137). -/
  | vsub (p : Pre) (f : FmtV2)
  /-- VMUL (R137). -/
  | vmul (p : Pre) (f : FmtV2)
  /-- VFMA (R137). -/
  | vfma (p : Pre) (f : FmtV3)
  /-- VFMS (R137). -/
  | vfms (p : Pre) (f : FmtV3)
  /-- VADDS (R137). -/
  | vadds (p : Pre) (f : FmtV2)
  /-- VSUBS (R137). -/
  | vsubs (p : Pre) (f : FmtV2)
  /-- VMULH (R137). -/
  | vmulh (p : Pre) (f : FmtV2)
  /-- VMIN (R140). -/
  | vmin (p : Pre) (f : FmtV2)
  /-- VMAX (R140). -/
  | vmax (p : Pre) (f : FmtV2)
  /-- VABS (R140). -/
  | vabs (p : Pre) (f : FmtV2)
  /-- VNEG (R140). -/
  | vneg (p : Pre) (f : FmtV2)
  /-- VAND (R141). -/
  | vand (p : Pre) (f : FmtV2)
  /-- VOR (R141). -/
  | vor (p : Pre) (f : FmtV2)
  /-- VXOR (R141). -/
  | vxor (p : Pre) (f : FmtV2)
  /-- VANDN (R141). -/
  | vandn (p : Pre) (f : FmtV2)
  /-- VSHL (R141). -/
  | vshl (p : Pre) (f : FmtV2)
  /-- VSHR (R141). -/
  | vshr (p : Pre) (f : FmtV2)
  /-- VSAR (R141). -/
  | vsar (p : Pre) (f : FmtV2)
  /-- VCMPEQ (R142). -/
  | vcmpeq (p : Pre) (f : FmtV2)
  /-- VCMPNE (R142). -/
  | vcmpne (p : Pre) (f : FmtV2)
  /-- VCMPLT (R142). -/
  | vcmplt (p : Pre) (f : FmtV2)
  /-- VCMPLE (R142). -/
  | vcmple (p : Pre) (f : FmtV2)
  /-- VCVT (R143). -/
  | vcvt (p : Pre) (f : FmtV2)
  /-- VQNT (R145). -/
  | vqnt (p : Pre) (f : FmtV2)
  /-- VBSCALE (R144). -/
  | vbscale (p : Pre) (f : FmtV2)
  /-- VDQNT (R146). -/
  | vdqnt (p : Pre) (f : FmtV2)
  /-- VREDADD (R147). -/
  | vredadd (p : Pre) (f : FmtV2)
  /-- VREDMAX (R147). -/
  | vredmax (p : Pre) (f : FmtV2)
  /-- VREDMIN (R147). -/
  | vredmin (p : Pre) (f : FmtV2)
  /-- VPOPC (R148). -/
  | vpopc (p : Pre) (f : FmtV2)
  /-- VCLZ (R148). -/
  | vclz (p : Pre) (f : FmtV2)
  /-- VEXP2 (R51). -/
  | vexp2 (p : Pre) (f : FmtV2)
  /-- VRCP (R49). -/
  | vrcp (p : Pre) (f : FmtV2)
  /-- VRSQ (R50). -/
  | vrsq (p : Pre) (f : FmtV2)
  /-- VPERM (R151). -/
  | vperm (p : Pre) (f : FmtV2)
  /-- VSHUF (R151). -/
  | vshuf (p : Pre) (f : FmtV2)
  /-- VTRN (R151). -/
  | vtrn (p : Pre) (f : FmtV2)
  /-- VBCAST (R151). -/
  | vbcast (p : Pre) (f : FmtV2)
  /-- VLANE (R151). -/
  | vlane (p : Pre) (f : FmtV2)
  /-- VROT (R151). -/
  | vrot (p : Pre) (f : FmtV2)
  /-- VZIP (R151). -/
  | vzip (p : Pre) (f : FmtV2)
  /-- VUNZIP (R151). -/
  | vunzip (p : Pre) (f : FmtV2)
  /-- VRULE (R301). -/
  | vrule (p : Pre) (f : FmtV2)
  /-- MNOP (R155). -/
  | mnop (p : Pre)
  /-- MCALL (R160). -/
  | mcall (p : Pre) (f : FmtMF)
  /-- MSETK (R156). -/
  | msetk (p : Pre) (f : FmtMK)
  /-- MSETK_ALL (R156). -/
  | msetkAll (p : Pre) (f : FmtMA)
  /-- MRING (R158). -/
  | mring (p : Pre) (f : FmtMR)
  /-- MADV (R159). -/
  | madv (p : Pre) (f : FmtMR)
  /-- MDRAIN (R167). -/
  | mdrain (p : Pre) (f : FmtMD)
  /-- MWAIT (R170). -/
  | mwait (p : Pre)
  /-- MATRIX_COMMAND_START (R157). -/
  | matrixCommandStart (c : Nat)
  /-- MRING_EXECUTE (R158). -/
  | mringExecute (c : Nat)
  /-- MADV_EXECUTE (R159). -/
  | madvExecute (c : Nat)
  /-- MCALL_START (R160). -/
  | mcallStart (c : Nat)
  /-- MDRAIN_EXECUTE (R168). -/
  | mdrainExecute (c : Nat)
  /-- DEFERRED_MATRIX_FAULT (R171). -/
  | deferredMatrixFault (c : Nat)
  /-- UNOP (R162). -/
  | unop
  /-- UFETA (R162). -/
  | ufeta (k : BitVec 3) (ks : Bool) (off : BitVec 9)
  /-- UFETB (R162). -/
  | ufetb (b : Bool)
  /-- UMAC (R163). -/
  | umac (k : BitVec 3) (ks : Bool) (n : BitVec 10) (b : Bool)
  /-- UZACC (R162). -/
  | uzacc (k : BitVec 3) (ks : Bool) (n : BitVec 10)
  /-- USCA (R162). -/
  | usca (m : Bool) (sc : BitVec 8)
  /-- USCB (R162). -/
  | uscb (m : Bool) (sc : BitVec 8)
  /-- USTEP (R162). -/
  | ustep (k : BitVec 3) (ks : Bool) (neg : Bool) (w : Bool) (d : BitVec 16)
  /-- ULOOP (R162). -/
  | uloop (k : BitVec 3) (ks : Bool) (n : BitVec 16)
  /-- UENDL (R162). -/
  | uendl
  /-- UPOPA (R162). -/
  | upopa
  /-- UPOPB (R162). -/
  | upopb
  /-- USYNC (R162). -/
  | usync
  /-- URET (R164). -/
  | uret
  /-- TADD (R260). -/
  | tadd (p : Pre) (f : FmtMT)
  /-- TSUB (R260). -/
  | tsub (p : Pre) (f : FmtMT)
  /-- TMUL (R260). -/
  | tmul (p : Pre) (f : FmtMT)
  /-- TMAX (R260). -/
  | tmax (p : Pre) (f : FmtMT)
  /-- TMIN (R260). -/
  | tmin (p : Pre) (f : FmtMT)
  /-- TMM (R261). -/
  | tmm (p : Pre) (f : FmtMT)
  /-- TRED (R262). -/
  | tred (p : Pre) (f : FmtMT)
  /-- TCVT (R263). -/
  | tcvt (p : Pre) (f : FmtMT)
  /-- TCOPY (R263). -/
  | tcopy (p : Pre) (f : FmtMT)
  /-- TSMAX (R264). -/
  | tsmax (p : Pre) (f : FmtMT)
  /-- TACT (R265). -/
  | tact (p : Pre) (f : FmtMT)
  /-- TGV (R292). -/
  | tgv (p : Pre) (f : FmtMT)
  /-- TWAIT (R276). -/
  | twait (p : Pre) (f : FmtMT)
  /-- TWHERE (R277). -/
  | twhere (p : Pre) (f : FmtMT)
  /-- TALLRED (R407). -/
  | tallred (p : Pre) (f : FmtMT)
  /-- TGATHER (R407). -/
  | tgather (p : Pre) (f : FmtMT)
  /-- TBCAST (R407). -/
  | tbcast (p : Pre) (f : FmtMT)
  /-- TOP_PLACEMENT (R259). -/
  | topPlacement (t : Nat)
  /-- TOP_ACCEPT (R273). -/
  | topAccept (t : Nat)
  /-- TILE_CLAIM (R273). -/
  | tileClaim (d : Nat) (w : Claimant)
  /-- TILE_COMPLETE (R272). -/
  | tileComplete (t : Nat) (n : Nat)
  /-- TOP_REPORT (R278). -/
  | topReport (t : Nat)
  /-- COLLECTIVE_STEP (R407). -/
  | collectiveStep (t : Nat) (inp : SwitchInput)
  /-- DIGEST_CONFIRM (R408). -/
  | digestConfirm (t : Nat)
  /-- COLLECTIVE_RETRY (R408). -/
  | collectiveRetry (t : Nat) (disagree : Bool)
  /-- CNOP (R75). -/
  | cnop (p : Pre)
  /-- LDS (R183). -/
  | lds (p : Pre) (f : FmtCL)
  /-- STS (R183). -/
  | sts (p : Pre) (f : FmtCL)
  /-- LDVS (R183). -/
  | ldvs (p : Pre) (f : FmtCL)
  /-- STVS (R183). -/
  | stvs (p : Pre) (f : FmtCL)
  /-- SPILL (R186). -/
  | spill (p : Pre) (f : FmtCL)
  /-- FILL (R186). -/
  | fill (p : Pre) (f : FmtCL)
  /-- LD (R188). -/
  | ld (p : Pre) (f : FmtCH)
  /-- ST (R188). -/
  | st (p : Pre) (f : FmtCH)
  /-- LDV (R188). -/
  | ldv (p : Pre) (f : FmtCH)
  /-- STV (R188). -/
  | stv (p : Pre) (f : FmtCH)
  /-- GSET (R190). -/
  | gset (p : Pre) (f : FmtCH)
  /-- DLD (R192). -/
  | dld (p : Pre) (f : FmtCH)
  /-- LDA (R219). -/
  | lda (p : Pre) (f : FmtCH)
  /-- STL (R220). -/
  | stl (p : Pre) (f : FmtCH)
  /-- FENCE (R221). -/
  | fence (p : Pre) (f : FmtCF)
  /-- MARK (R216). -/
  | mark (p : Pre)
  /-- WAITV (R231). -/
  | waitv (p : Pre) (f : FmtCA)
  /-- AADD (R227). -/
  | aadd (p : Pre) (f : FmtCA)
  /-- AMIN (R227). -/
  | amin (p : Pre) (f : FmtCA)
  /-- AMAX (R227). -/
  | amax (p : Pre) (f : FmtCA)
  /-- AMINN (R227). -/
  | aminn (p : Pre) (f : FmtCA)
  /-- AMAXN (R227). -/
  | amaxn (p : Pre) (f : FmtCA)
  /-- AAND (R227). -/
  | aand (p : Pre) (f : FmtCA)
  /-- AOR (R227). -/
  | aor (p : Pre) (f : FmtCA)
  /-- AXOR (R227). -/
  | axor (p : Pre) (f : FmtCA)
  /-- AXCHG (R227). -/
  | axchg (p : Pre) (f : FmtCA)
  /-- ACAS (R227). -/
  | acas (p : Pre) (f : FmtCA)
  /-- AFADD (R228). -/
  | afadd (p : Pre) (f : FmtCA)
  /-- ASWAPV (R229). -/
  | aswapv (p : Pre) (f : FmtCH)
  /-- CPY (R241). -/
  | cpy (p : Pre) (f : FmtCE)
  /-- CPY2 (R240). -/
  | cpy2 (p : Pre) (f : FmtCE)
  /-- CPYN (R239). -/
  | cpyn (p : Pre) (f : FmtCE)
  /-- CPYSUM (R245). -/
  | cpysum (p : Pre) (f : FmtCE)
  /-- CWAIT (R247). -/
  | cwait (p : Pre) (f : FmtCE)
  /-- CSTAT (R248). -/
  | cstat (p : Pre) (f : FmtCE)
  /-- XLAT (R335). -/
  | xlat (p : Pre) (f : FmtCT)
  /-- HREL (R337). -/
  | hrel (p : Pre) (f : FmtCT)
  /-- HTEST (R337). -/
  | htest (p : Pre) (f : FmtCT)
  /-- QUEUE_SEND (R214). -/
  | queueSend (a : Agent) (store : Bool)
  /-- REPLY_LANDS (R101). -/
  | replyLands (r : Nat)
  /-- HOME_ACCESS (R200). -/
  | homeAccess (r : Nat)
  /-- HOME_ATOMIC (R226). -/
  | homeAtomic (r : Nat)
  /-- WAITV_RETRY (R231). -/
  | waitvRetry (c : Nat)
  /-- BALLOON_TAKE (R203). -/
  | balloonTake (d : Nat)
  /-- HELD_WRITE_ABANDON (R205). -/
  | heldWriteAbandon (d : Nat)
  /-- REFRESH_MANAGEMENT (R208). -/
  | refreshManagement (d : Nat) (b : Nat)
  /-- PEER_REQUEST (R403). -/
  | peerRequest (q : PeerReq)
  /-- CHIMELINK_LINK_LOSS (R404). -/
  | chimelinkLinkLoss (k : Nat)
  /-- LATE_FREEZE (R353). -/
  | lateFreeze (g : Group)
  /-- FREEZE_RELEASE (R353). -/
  | freezeRelease (g : Group)
  /-- FREEZE_TIMEOUT (R355). -/
  | freezeTimeout (g : Group)
  /-- POWER_FREEZE (R371). -/
  | powerFreeze (c : Nat)
  /-- COPY_COMMAND_START (R236). -/
  | copyCommandStart (c : Nat) (e : Nat)
  /-- COPY_CHUNK (R243). -/
  | copyChunk (c : Nat) (e : Nat)
  /-- COPY_REPORT (R244). -/
  | copyReport (c : Nat) (e : Nat)
  /-- TLB_FILL_LANDS (R334). -/
  | tlbFillLands (c : Nat) (k : Nat)
  /-- LEASE_RECALL (R340). -/
  | leaseRecall (pg : Nat) (cl : Nat)
  /-- RECALL_COMPLETE (R340). -/
  | recallComplete (pg : Nat)
  /-- USER_INTERRUPT_ENTRY (R383). -/
  | userInterruptEntry (c : Nat)
  /-- TRAP_REPORT (R378). -/
  | trapReport (c : Nat)
  /-- ROLLBACK (R382). -/
  | rollback (c : Nat)
  /-- IBUF_RELOAD (R386). -/
  | ibufReload (c : Nat)
  /-- LANTERN_LOAD (R308). -/
  | lanternLoad (n : Nat) (d : Nat)
  /-- LANTERN_SEGMENT_END (R307). -/
  | lanternSegmentEnd (pr : Nat)
  /-- LANTERN_HALT (R309). -/
  | lanternHalt (pr : Nat)
  /-- LANTERN_FAULT (R313). -/
  | lanternFault (pr : Nat)
  /-- LANTERN_FREEZE (R311). -/
  | lanternFreeze (pr : Nat)
  /-- BELL_ARRIVAL (R366). -/
  | bellArrival (c : Nat) (b : Nat)
  /-- BELL_RELEASE (R363). -/
  | bellRelease (n : Nat) (b : Nat)
  /-- POST (R399). -/
  | post (q : Nat)
  /-- ARBITRATION (R329). -/
  | arbitration
  /-- COMMAND_QUEUE_PROMOTION (R329). -/
  | commandQueuePromotion (q : Nat)
  /-- LEADER_HANDOVER (R328). -/
  | leaderHandover (q : Nat)
  /-- DISPATCH_RELEASE (R349). -/
  | dispatchRelease (n : Nat)
  /-- CORE_FREE (R24). -/
  | coreFree (c : Nat)
  /-- LAUNCH_COMPLETE (R26). -/
  | launchComplete (n : Nat)
  /-- CORE_STOP (R388). -/
  | coreStop (c : Nat)
  /-- CONTEXT_SAVE (R390). -/
  | contextSave (n : Nat) (sp : Nat)
  /-- COMPLETION_RECORD (R326). -/
  | completionRecord (q : Nat) (sl : Nat)
  /-- COALESCING_WINDOW_END (R327). -/
  | coalescingWindowEnd (q : Nat)
  /-- INTERRUPT_MESSAGE (R400). -/
  | interruptMessage
  /-- NOTIFICATION_POST (R344). -/
  | notificationPost
  /-- HOST_WINDOW_READ (R398). -/
  | hostWindowRead (pa : Nat) (n : Nat)
  /-- HOST_WINDOW_WRITE (R398). -/
  | hostWindowWrite (pa : Nat) (bs : List Byte)
  /-- PATCHADDR_WRITE (R415). -/
  | patchaddrWrite (v : W64)
  /-- ATTADDR_WRITE (R417). -/
  | attaddrWrite (v : W64)
  /-- BOOTCTL_GO (R413). -/
  | bootctlGo (v : W64)
  /-- INJCTL_WRITE (R253). -/
  | injctlWrite (c : Nat) (v : W64)
  /-- DSTAT_CLEAR (R211). -/
  | dstatClear (d : Nat) (v : W64)
  /-- MONCTL_WRITE (R374). -/
  | monctlWrite (m : MonAddr) (v : W64)
  /-- MONITOR_SAMPLE (R375). -/
  | monitorSample (m : MonAddr) (v : Nat)
  /-- REGISTER_WRITE (R4). -/
  | registerWrite (pa : Nat) (v : W64)
  /-- PANEL_RESET (R413). -/
  | panelReset (b : BringUp)
  /-- SPIRE_DIE_RESET (R392). -/
  | spireDieReset (sp : Nat)
  /-- ROUTER_RESET (R393). -/
  | routerReset (site : Nat)
  /-- CHIMELINK_LINK_RETURN (R404). -/
  | chimelinkLinkReturn (k : Nat)
  /-- UNCORRECTABLE_ECC_ERROR (R198). -/
  | uncorrectableEccError (u : EccSite)
  /-- NOTIFICATION_RDPTR_WRITE (R344). -/
  | notificationRdptrWrite (v : BitVec 32)
  /-- CORE_RETIREMENT (R330). -/
  | coreRetirement (c : Nat)
  /-- EVENT_COUNTER_HOST_WRITE (R321). -/
  | eventCounterHostWrite (pa : Nat) (v : W64)
  deriving DecidableEq, Repr

end Sys2Proof
end

