-- ==== Sys2Proof/WellFormed.lean ====
section
/-! DEFINITION. Which instructions the encodings admit: the legal field values of R57, R64 to R70 and of each
instruction's own rule, for a core and for the two lantern threads (R80, R304 to R307). -/

namespace Sys2Proof

/-- The three kinds of sequencer that decode bundles (R80). -/
inductive Thread where
  | core | lanA | lanE
  deriving DecidableEq, Repr

/-- The operation width of a scalar sz field in bits (R111). -/
def opWidth (sz : BitVec 2) : Nat := 64 / 2 ^ sz.toNat

/-- Lane width in bytes of a lane type (R131). -/
def laneBytes (ty : BitVec 4) : Nat :=
  match ty.toNat with
  | 1 | 5 | 8 | 9 => 2
  | 2 | 6 | 10 => 4
  | 3 | 7 => 8
  | _ => 1

/-- The number of lanes of a lane type (R131). -/
def laneCount (ty : BitVec 4) : Nat := 64 / laneBytes ty

def isInt (ty : BitVec 4) : Bool := ty.toNat ≤ 7
def isFloat (ty : BitVec 4) : Bool := 8 ≤ ty.toNat && ty.toNat ≤ 10
def isTF (ty : BitVec 4) : Bool := ty.toNat == 11 || ty.toNat == 12
def isSigned (ty : BitVec 4) : Bool := ty.toNat ≤ 3

/-- Lane type codes that instructions read operands with by name (R64). -/
def tyN8 : BitVec 4 := 4
def tyF32 : BitVec 4 := 10

/-- Whether a constant code is legal in a lane type (R64). -/
def constOk (code : Nat) (ty : BitVec 4) : Bool :=
  match code with
  | 1666 => !isTF ty
  | 1669 => isFloat ty
  | 1673 | 1674 => !isTF ty
  | _ => 1664 ≤ code && code ≤ 1675

/-- A vector queue code that may be read (R64, R80, R98). -/
def vecReadable (th : Thread) (n : Nat) : Bool :=
  match th with
  | .core => n ≤ 1535
  | .lanA => n ≤ 127 || n == 1534
  | .lanE => n ≤ 127 || n == 1535

/-- A vector queue code that may be written (R64, R80, R98). -/
def vecWritable (th : Thread) (n : Nat) : Bool :=
  match th with
  | .core => n ≤ 1535
  | .lanA => n ≤ 127 || n == 1535
  | .lanE => n ≤ 127 || n == 1534

/-- A scalar queue that may be read (R98). -/
def scaReadable (th : Thread) (n : Nat) : Bool :=
  match th with
  | .core => true
  | .lanA => n != 62
  | .lanE => n != 63

/-- A scalar queue that may be written (R98). -/
def scaWritable (th : Thread) (n : Nat) : Bool :=
  match th with
  | .core => true
  | .lanA => n != 63
  | .lanE => n == 63

/-- A vector source operand: its code, its peek bit, and the type a constant takes (R64, R133). -/
def srcOk (th : Thread) (code : BitVec 11) (peek : Bool) (ty : BitVec 4) : Bool :=
  let n := code.toNat
  if n ≤ 1535 then vecReadable th n
  else if n ≤ 1567 then th == .core && !peek
  else if n < 1600 then false
  else if n ≤ 1663 then scaReadable th (n - 1600)
  else !peek && constOk n ty

/-- A vector destination (R64); an E-thread may also name x63 by code 1663 (R307). -/
def dstOk (th : Thread) (code : BitVec 11) : Bool :=
  vecWritable th code.toNat || (th == .lanE && code.toNat == 1663)

/-- Positions a slot opcode may stand at. -/
def scPos (p : Pre) : Bool := p.pos == .sc
def vecPos (p : Pre) : Bool := p.pos == .va || p.pos == .vb
def mxPos (p : Pre) : Bool := p.pos == .mx
def chPos (p : Pre) : Bool := p.pos == .ca || p.pos == .cb

/-- Legal scalar reads and writes of one slot. -/
def rdX (th : Thread) (x : BitVec 6) : Bool := scaReadable th x.toNat
def wrX (th : Thread) (x : BitVec 6) : Bool := scaWritable th x.toNat

/-- S3 with two sources (R113). -/
def s3Two (th : Thread) (f : FmtS3) : Bool := f.pc == 0 && rdX th f.xa && rdX th f.xb && wrX th f.xd
/-- S3 with one source (R113). -/
def s3One (th : Thread) (f : FmtS3) : Bool := f.pc == 0 && f.xb == 0 && !f.pb && rdX th f.xa && wrX th f.xd
/-- MOV's source selector (R112). -/
def movOk (th : Thread) (f : FmtS3) : Bool :=
  f.xb == 0 && !f.pb && wrX th f.xd &&
    (if f.pc == 0 then rdX th f.xa else 8 ≤ f.pc.toNat && f.pc.toNat ≤ 13 && f.xa == 0 && !f.pa)
def siOk (th : Thread) (f : FmtSI) : Bool := rdX th f.xa && wrX th f.xd
/-- A shift immediate: a count below the width (R115). -/
def siShift (th : Thread) (f : FmtSI) : Bool := siOk th f && f.imm.toNat < opWidth f.sz
def sqOk (th : Thread) (f : FmtSQ) : Bool := rdX th f.xa && rdX th f.xb
def spTwo (f : FmtSP) : Bool := f.x == 0 && !f.px
def spNot (f : FmtSP) : Bool := spTwo f && f.pb == 0 && !f.ib
def spSet (th : Thread) (f : FmtSP) : Bool := f.pa == 0 && f.pb == 0 && !f.ia && !f.ib && rdX th f.x
def spGet (th : Thread) (f : FmtSP) : Bool := f.pd == 0 && f.pb == 0 && !f.ib && !f.px && wrX th f.x
def sjTarget (f : FmtSJ) : Bool := f.xa == 0 && !f.pa && f.nd == 0
def sjReg (th : Thread) (f : FmtSJ) : Bool := f.target == 0 && f.nd == 0 && rdX th f.xa
def sjRun (f : FmtSJ) : Bool := f.xa == 0 && !f.pa && 1 ≤ f.nd.toNat && f.nd.toNat ≤ 6
def lsetOk (f : FmtSK) : Bool := f.cr.toNat ≤ 5 && f.idx.toNat ≤ 5
/-- The index of a control register (R65). -/
def crIdxOk (cr idx : BitVec 8) : Bool :=
  cr.toNat ≤ 19 &&
    (if cr.toNat == 18 then idx.toNat ≤ 95 else if cr.toNat == 19 then idx.toNat ≤ 15 else idx == 0)
def rdcrOk (th : Thread) (f : FmtSK) : Bool :=
  !f.pa && crIdxOk f.cr f.idx && wrX th f.x && (th == .core || f.cr == 1 || f.cr == 2)
def wrcrOk (f : FmtSW) : Bool := f.idx == 0
def trapOk (f : FmtSN) : Bool := f.code.toNat < 128 && f.bell == 0 && f.pd == 0
def bellOk (f : FmtSN) : Bool := f.pd == 0 && f.code == 0
def btestOk (f : FmtSN) : Bool := f.code == 0

/-- rm on rows that round float lanes only (R135, R137). -/
def rmFloat (ty : BitVec 4) (rm : BitVec 2) : Bool := isFloat ty || rm == 0

/-- V2 with two sources of the lane type. -/
def v2Two (th : Thread) (f : FmtV2) : Bool :=
  dstOk th f.vd && srcOk th f.va f.pa f.ty && srcOk th f.vb f.pb f.ty
/-- V2 with one source: vb and pb are zero (R135). -/
def v2One (th : Thread) (f : FmtV2) : Bool :=
  dstOk th f.vd && srcOk th f.va f.pa f.ty && f.vb == 0 && !f.pb
def vArith (th : Thread) (f : FmtV2) : Bool :=
  v2Two th f && (isInt f.ty || isFloat f.ty) && rmFloat f.ty f.rm && f.aux == 0
def vArithI (th : Thread) (f : FmtV2) : Bool := v2Two th f && isInt f.ty && f.rm == 0 && f.aux == 0
def vMinMax (th : Thread) (f : FmtV2) : Bool :=
  v2Two th f && (isInt f.ty || isFloat f.ty) && f.rm == 0 && f.aux == 0
def vAbsNeg (th : Thread) (f : FmtV2) : Bool :=
  v2One th f && (isInt f.ty || isFloat f.ty) && f.rm == 0 && f.aux == 0
def vLogic (th : Thread) (f : FmtV2) : Bool := v2Two th f && f.ty.toNat ≤ 12 && f.rm == 0 && f.aux == 0
def vMovOk (th : Thread) (f : FmtV2) : Bool := v2One th f && f.ty.toNat ≤ 12 && f.rm == 0 && f.aux == 0
/-- The two count forms of the vector shifts (R141). -/
def vShiftOk (th : Thread) (f : FmtV2) : Bool :=
  isInt f.ty && f.rm == 0 &&
    (if f.aux.toNat < 512 then f.aux == 0 && v2Two th f
     else f.aux.toNat - 512 < 64 && f.aux.toNat - 512 < 8 * laneBytes f.ty && v2One th f)
def vCmpOk (th : Thread) (f : FmtV2) : Bool :=
  f.vd.toNat < 16 && srcOk th f.va f.pa f.ty && srcOk th f.vb f.pb f.ty &&
    (isInt f.ty || isFloat f.ty) && f.rm == 0 && f.aux == 0
/-- The target type and part of VCVT (R143). -/
def cvtT (f : FmtV2) : BitVec 4 := f.aux.extractLsb' 0 4
def cvtPart (f : FmtV2) : Nat := (f.aux.extractLsb' 4 3).toNat
def cvtSat (f : FmtV2) : Bool := f.aux.getLsbD 7
def vCvtOk (th : Thread) (f : FmtV2) : Bool :=
  let t := cvtT f
  let ws := laneBytes f.ty
  let wt := laneBytes t
  v2One th f && f.ty.toNat ≤ 10 && t.toNat ≤ 10 && f.aux.toNat < 256 &&
    cvtPart f < max ws wt / min ws wt &&
    (if isInt f.ty && isInt t then f.rm == 0 else !cvtSat f)
def quantTy (ty : BitVec 4) : Bool := ty == 0 || isTF ty
def vQntOk (th : Thread) (f : FmtV2) : Bool :=
  dstOk th f.vd && srcOk th f.va f.pa tyF32 && srcOk th f.vb f.pb tyN8 && quantTy f.ty && f.aux.toNat < 4
def vBscaleOk (th : Thread) (f : FmtV2) : Bool :=
  dstOk th f.vd && srcOk th f.va f.pa tyF32 && srcOk th f.vb f.pb tyF32 && quantTy f.ty && f.rm == 0 &&
    f.aux.toNat < 2
def vDqntOk (th : Thread) (f : FmtV2) : Bool :=
  dstOk th f.vd && srcOk th f.va f.pa tyN8 && srcOk th f.vb f.pb tyN8 && quantTy f.ty && f.aux.toNat < 4
def vRedAddOk (th : Thread) (f : FmtV2) : Bool :=
  v2One th f && (isInt f.ty || isFloat f.ty) && rmFloat f.ty f.rm && f.aux == 0
def vCountOk (th : Thread) (f : FmtV2) : Bool := v2One th f && isInt f.ty && f.rm == 0 && f.aux == 0
def vTransOk (th : Thread) (f : FmtV2) : Bool := v2One th f && f.ty == tyF32 && f.aux == 0
def vPermOk (th : Thread) (f : FmtV2) : Bool := v2Two th f && f.ty.toNat ≤ 12 && f.rm == 0
def vPermOne (th : Thread) (f : FmtV2) : Bool :=
  v2One th f && f.ty.toNat ≤ 12 && f.rm == 0 && f.aux.toNat < laneCount f.ty
def vRuleOk (th : Thread) (f : FmtV2) : Bool :=
  v2Two th f && f.ty == tyF32 && f.rm == 0 && f.aux.toNat < 4
def v3Ok (th : Thread) (f : FmtV3) : Bool :=
  dstOk th f.vd && srcOk th f.va f.pa f.ty && srcOk th f.vb false f.ty && srcOk th f.vc false f.ty

/-- aux of the T-ops (R258, R292, R405). -/
def topAuxOk (op : Nat) (aux : BitVec 8) : Bool :=
  let a := aux.toNat
  if 0x10 ≤ op && op ≤ 0x14 then a < 8
  else if op == 0x15 then a % 16 == a && !aux.getLsbD 2
  else if op == 0x16 then !aux.getLsbD 3 && a / 64 < 3
  else if op == 0x17 then a < 8
  else if op == 0x18 then a == 0
  else if op == 0x19 then a < 4
  else if op == 0x1A then !aux.getLsbD 3 && a / 16 < 7
  else if op == 0x1B then a < 4
  else if op == 0x20 then a / 64 < 3
  else if op == 0x21 || op == 0x22 then a % 4 == 0 && a / 64 == 0
  else false
/-- Whether a T-op form has a second source (R257, R405). -/
def topTwo (op : Nat) : Bool := (0x10 ≤ op && op ≤ 0x15) || op == 0x1B
def topOk (op : Nat) (f : FmtMT) : Bool := topAuxOk op f.aux && !f.pt && (topTwo op || f.ds2 == 0)
def twaitOk (f : FmtMT) : Bool := f.dd == 0 && f.ds1 == 0 && f.ds2 == 0 && f.aux == 0
def twhereOk (f : FmtMT) : Bool :=
  0x10 ≤ f.aux.toNat && f.aux.toNat ≤ 0x1B && !f.pt && (topTwo f.aux.toNat || f.ds2 == 0)

def clAddr (th : Thread) (f : FmtCL) : Bool := if f.nx then f.xa == 0 && !f.pa else rdX th f.xa
def clSp (th : Thread) (f : FmtCL) : Bool := if th == .core then f.sp.toNat ≤ 4 else f.sp == 0
def ldsOk (th : Thread) (f : FmtCL) : Bool :=
  f.reg.toNat < 64 && scaWritable th f.reg.toNat && f.sz != 7 && clAddr th f && clSp th f
def stsOk (th : Thread) (f : FmtCL) : Bool :=
  f.reg.toNat < 64 && scaReadable th f.reg.toNat && f.sz != 7 && clAddr th f && clSp th f && f.sp != 3
def ldvsOk (th : Thread) (f : FmtCL) : Bool := vecWritable th f.reg.toNat && f.sz == 7 && clAddr th f && clSp th f
def stvsOk (th : Thread) (f : FmtCL) : Bool :=
  vecReadable th f.reg.toNat && f.sz == 7 && clAddr th f && clSp th f && f.sp != 3
def spillOk (f : FmtCL) : Bool :=
  f.sp == 0 && clAddr .core f &&
    ((f.sz == 3 && f.reg.toNat < 64) || (f.sz == 7 && f.reg.toNat ≤ 1535))
def chAddr (th : Thread) (f : FmtCH) : Bool :=
  if th == .core then (if f.nx then f.xo == 0 && !f.po else true)
  else f.h == 0 && !f.nx && rdX th f.xo
def ldOk (th : Thread) (f : FmtCH) : Bool :=
  f.reg.toNat < 64 && scaWritable th f.reg.toNat && f.sz != 7 && chAddr th f
def stOk (th : Thread) (f : FmtCH) : Bool :=
  f.reg.toNat < 64 && scaReadable th f.reg.toNat && f.sz != 7 && f.lat == 0 && chAddr th f
def ldvOk (th : Thread) (f : FmtCH) : Bool := vecWritable th f.reg.toNat && f.sz == 7 && chAddr th f
def stvOk (th : Thread) (f : FmtCH) : Bool := vecReadable th f.reg.toNat && f.sz == 7 && f.lat == 0 && chAddr th f
def gsetOk (f : FmtCH) : Bool := f.reg.toNat < 32 && f.sz == 3 && chAddr .core f
def dldOk (f : FmtCH) : Bool := f.reg.toNat < 16 && f.sz == 7 && chAddr .core f
def aswapvOk (f : FmtCH) : Bool := f.reg.toNat ≤ 1535 && f.sz == 7 && chAddr .core f
/-- An atomic with no comparand (R227). -/
def atomOk (f : FmtCA) : Bool := (!f.nr || (f.xd == 0 && f.lat == 0)) && f.xc == 0 && !f.pk.getLsbD 0
def acasOk (f : FmtCA) : Bool := !f.nr || (f.xd == 0 && f.lat == 0)
def waitvOk (f : FmtCA) : Bool :=
  f.xd.toNat ≤ 5 && f.xc == 0 && f.lat == 0 && !f.nr && !f.pk.getLsbD 0
def cpyOk (f : FmtCE) : Bool := f.xs == 0 && !f.ps
def cwaitOk (f : FmtCE) : Bool :=
  f.xs == 0 && !f.ps && !f.eng && f.hs == 0 && f.hd == 0 && !f.acq && !f.rel

/-- Microinstructions: the k field is zero without ks (R161, R165). -/
def kOk (k : BitVec 3) (ks : Bool) : Bool := ks || k == 0

def coreId (c : Nat) : Bool := c < 8192
def pairId (p : Nat) : Bool := p < 8192
def domeId (d : Nat) : Bool := d < 128
def agentOk : Agent → Bool
  | .core c => coreId c
  | .lanA p => pairId p
  | .lanE p => pairId p

/-- Sizes of an access over a link (R188, R402). -/
def peerSize (n : Nat) : Bool := n == 1 || n == 2 || n == 4 || n == 8 || n == 64

/-- Post addresses (R399). -/
def postAddr (pa : Nat) : Bool := 0xA000100000000 ≤ pa && pa < 0xA000200000000

/-- Whether an instruction of the table is one that its encoding, or the agent that takes the step, admits on
a sequencer of kind `th`. -/
def legal (th : Thread) : Instr → Bool
  | .nop p => scPos p
  | .mov p f => scPos p && movOk th f
  | .movi p f => scPos p && wrX th f.xd
  | .moviz p f => scPos p && wrX th f.xd
  | .movih p f => scPos p && wrX th f.xd
  | .sel p f => scPos p && rdX th f.xa && rdX th f.xb && wrX th f.xd
  | .add p f => scPos p && s3Two th f
  | .sub p f => scPos p && s3Two th f
  | .mul p f => scPos p && s3Two th f
  | .mulh p f => scPos p && s3Two th f
  | .mulhn p f => scPos p && s3Two th f
  | .div p f => scPos p && s3Two th f
  | .divn p f => scPos p && s3Two th f
  | .rem p f => scPos p && s3Two th f
  | .remn p f => scPos p && s3Two th f
  | .min p f => scPos p && s3Two th f
  | .max p f => scPos p && s3Two th f
  | .minn p f => scPos p && s3Two th f
  | .maxn p f => scPos p && s3Two th f
  | .abs p f => scPos p && s3One th f
  | .and p f => scPos p && s3Two th f
  | .or p f => scPos p && s3Two th f
  | .xor p f => scPos p && s3Two th f
  | .andn p f => scPos p && s3Two th f
  | .clz p f => scPos p && s3One th f
  | .ctz p f => scPos p && s3One th f
  | .popc p f => scPos p && s3One th f
  | .shl p f => scPos p && s3Two th f
  | .shr p f => scPos p && s3Two th f
  | .sar p f => scPos p && s3Two th f
  | .ror p f => scPos p && s3Two th f
  | .addi p f => scPos p && siOk th f
  | .andi p f => scPos p && siOk th f
  | .ori p f => scPos p && siOk th f
  | .xori p f => scPos p && siOk th f
  | .shli p f => scPos p && siShift th f
  | .shri p f => scPos p && siShift th f
  | .sari p f => scPos p && siShift th f
  | .cmpeq p f => scPos p && sqOk th f
  | .cmpne p f => scPos p && sqOk th f
  | .cmplt p f => scPos p && sqOk th f
  | .cmple p f => scPos p && sqOk th f
  | .cmpltn p f => scPos p && sqOk th f
  | .cmplen p f => scPos p && sqOk th f
  | .pand p f => scPos p && spTwo f
  | .por p f => scPos p && spTwo f
  | .pxor p f => scPos p && spTwo f
  | .pnot p f => scPos p && spNot f
  | .pset p f => scPos p && spSet th f
  | .pget p f => scPos p && spGet th f
  | .br p f => scPos p && !p.hold && sjTarget f
  | .brx p f => scPos p && !p.hold && sjReg th f
  | .call p f => scPos p && !p.hold && sjTarget f
  | .ret p => scPos p && !p.hold
  | .lset p f => scPos p && !p.hold && th == .core && lsetOk f
  | .lrun p f => scPos p && !p.hold && th == .core && sjRun f
  | .rdcr p f => scPos p && !p.hold && rdcrOk th f
  | .wrcrUivec p f => scPos p && !p.hold && th == .core && wrcrOk f
  | .wrcrUistat p f => scPos p && !p.hold && th == .core && wrcrOk f
  | .trap p f => scPos p && !p.hold && trapOk f
  | .uiret p => scPos p && !p.hold && th == .core
  | .bell p f => scPos p && !p.hold && th == .core && bellOk f
  | .bwait p f => scPos p && !p.hold && th == .core && bellOk f
  | .btest p f => scPos p && !p.hold && th == .core && btestOk f
  | .bexcuse p f => scPos p && !p.hold && th == .core && bellOk f
  | .restartMark => true
  | .endBundle => true
  | .quietBegin => true
  | .quietEnd => true
  | .regionOverrun => true
  | .vnop p => vecPos p
  | .vmov p f => vecPos p && vMovOk th f
  | .vsel p f => vecPos p && v3Ok th f && f.ty.toNat ≤ 12 && f.rm == 0
  | .vadd p f => vecPos p && vArith th f
  | .vsub p f => vecPos p && vArith th f
  | .vmul p f => vecPos p && vArith th f
  | .vfma p f => vecPos p && v3Ok th f && (isInt f.ty || isFloat f.ty) && rmFloat f.ty f.rm
  | .vfms p f => vecPos p && v3Ok th f && (isInt f.ty || isFloat f.ty) && rmFloat f.ty f.rm
  | .vadds p f => vecPos p && vArithI th f
  | .vsubs p f => vecPos p && vArithI th f
  | .vmulh p f => vecPos p && vArithI th f
  | .vmin p f => vecPos p && vMinMax th f
  | .vmax p f => vecPos p && vMinMax th f
  | .vabs p f => vecPos p && vAbsNeg th f
  | .vneg p f => vecPos p && vAbsNeg th f
  | .vand p f => vecPos p && vLogic th f
  | .vor p f => vecPos p && vLogic th f
  | .vxor p f => vecPos p && vLogic th f
  | .vandn p f => vecPos p && vLogic th f
  | .vshl p f => vecPos p && vShiftOk th f
  | .vshr p f => vecPos p && vShiftOk th f
  | .vsar p f => vecPos p && vShiftOk th f
  | .vcmpeq p f => vecPos p && vCmpOk th f
  | .vcmpne p f => vecPos p && vCmpOk th f
  | .vcmplt p f => vecPos p && vCmpOk th f
  | .vcmple p f => vecPos p && vCmpOk th f
  | .vcvt p f => vecPos p && vCvtOk th f
  | .vqnt p f => vecPos p && vQntOk th f
  | .vbscale p f => vecPos p && vBscaleOk th f
  | .vdqnt p f => vecPos p && vDqntOk th f
  | .vredadd p f => vecPos p && vRedAddOk th f
  | .vredmax p f => vecPos p && vAbsNeg th f
  | .vredmin p f => vecPos p && vAbsNeg th f
  | .vpopc p f => vecPos p && vCountOk th f
  | .vclz p f => vecPos p && vCountOk th f
  | .vexp2 p f => vecPos p && vTransOk th f
  | .vrcp p f => vecPos p && vTransOk th f
  | .vrsq p f => vecPos p && vTransOk th f
  | .vperm p f => p.pos == .vb && vPermOk th f && f.aux == 0
  | .vshuf p f => p.pos == .vb && vPermOne th f
  | .vtrn p f => p.pos == .vb && vPermOk th f && f.aux.toNat < 16 && 2 ^ (f.aux.toNat / 2) < laneCount f.ty
  | .vbcast p f => p.pos == .vb && vPermOne th f
  | .vlane p f => p.pos == .vb && vPermOk th f && f.aux.toNat < laneCount f.ty
  | .vrot p f => p.pos == .vb && vPermOk th f && f.aux.toNat < laneCount f.ty
  | .vzip p f => p.pos == .vb && vPermOk th f && f.aux.toNat < 2
  | .vunzip p f => p.pos == .vb && vPermOk th f && f.aux.toNat < 2
  | .vrule p f => p.pos == .vb && th == .lanE && vRuleOk th f
  | .mnop p => mxPos p
  | .mcall p f => mxPos p && !p.hold && f.ra != f.rb
  | .msetk p _ => mxPos p && !p.hold
  | .msetkAll p f => mxPos p && !p.hold && f.vq.toNat ≤ 1535
  | .mring p f => mxPos p && !p.hold && f.count == 0
  | .madv p f => mxPos p && !p.hold && f.xa == 0 && !f.pa && f.count != 0
  | .mdrain p f => mxPos p && !p.hold && f.fmt.toNat ≤ 5 && (f.fmt != 0 || f.rm == 0)
  | .mwait p => mxPos p && !p.hold
  | .matrixCommandStart c => coreId c
  | .mringExecute c => coreId c
  | .madvExecute c => coreId c
  | .mcallStart c => coreId c
  | .mdrainExecute c => coreId c
  | .deferredMatrixFault c => coreId c
  | .unop => true
  | .ufeta k ks _ => kOk k ks
  | .ufetb _ => true
  | .umac k ks _ _ => kOk k ks
  | .uzacc k ks _ => kOk k ks
  | .usca _ _ => true
  | .uscb _ _ => true
  | .ustep k ks neg _ _ => kOk k ks && (ks || !neg)
  | .uloop k ks _ => kOk k ks
  | .uendl => true
  | .upopa => true
  | .upopb => true
  | .usync => true
  | .uret => true
  | .tadd p f => mxPos p && !p.hold && topOk 0x10 f
  | .tsub p f => mxPos p && !p.hold && topOk 0x11 f
  | .tmul p f => mxPos p && !p.hold && topOk 0x12 f
  | .tmax p f => mxPos p && !p.hold && topOk 0x13 f
  | .tmin p f => mxPos p && !p.hold && topOk 0x14 f
  | .tmm p f => mxPos p && !p.hold && topOk 0x15 f
  | .tred p f => mxPos p && !p.hold && topOk 0x16 f
  | .tcvt p f => mxPos p && !p.hold && topOk 0x17 f
  | .tcopy p f => mxPos p && !p.hold && topOk 0x18 f
  | .tsmax p f => mxPos p && !p.hold && topOk 0x19 f
  | .tact p f => mxPos p && !p.hold && topOk 0x1A f
  | .tgv p f => mxPos p && !p.hold && topOk 0x1B f
  | .twait p f => mxPos p && !p.hold && twaitOk f
  | .twhere p f => mxPos p && !p.hold && twhereOk f
  | .tallred p f => mxPos p && !p.hold && topOk 0x20 f
  | .tgather p f => mxPos p && !p.hold && topOk 0x21 f
  | .tbcast p f => mxPos p && !p.hold && topOk 0x22 f
  | .topPlacement _ => true
  | .topAccept _ => true
  | .tileClaim d w => domeId d && (match w with | .lantern n => n < 64 | .pool c => coreId c)
  | .tileComplete _ _ => true
  | .topReport _ => true
  | .collectiveStep _ _ => true
  | .digestConfirm _ => true
  | .collectiveRetry _ _ => true
  | .cnop p => chPos p
  | .lds p f => chPos p && ldsOk th f
  | .sts p f => chPos p && stsOk th f
  | .ldvs p f => chPos p && ldvsOk th f
  | .stvs p f => chPos p && stvsOk th f
  | .spill p f => chPos p && th == .core && spillOk f
  | .fill p f => chPos p && th == .core && spillOk f
  | .ld p f => chPos p && ldOk th f
  | .st p f => chPos p && stOk th f
  | .ldv p f => chPos p && ldvOk th f
  | .stv p f => chPos p && stvOk th f
  | .gset p f => chPos p && !p.hold && th == .core && gsetOk f
  | .dld p f => chPos p && !p.hold && th == .core && dldOk f
  | .lda p f => chPos p && !p.hold && th == .core && ldOk th f
  | .stl p f => chPos p && !p.hold && th == .core && stOk th f
  | .fence p f => chPos p && !p.hold && f.kind != 0
  | .mark p => chPos p && !p.hold
  | .waitv p f => chPos p && !p.hold && th == .core && waitvOk f
  | .aadd p f => chPos p && th == .core && atomOk f
  | .amin p f => chPos p && th == .core && atomOk f
  | .amax p f => chPos p && th == .core && atomOk f
  | .aminn p f => chPos p && th == .core && atomOk f
  | .amaxn p f => chPos p && th == .core && atomOk f
  | .aand p f => chPos p && th == .core && atomOk f
  | .aor p f => chPos p && th == .core && atomOk f
  | .axor p f => chPos p && th == .core && atomOk f
  | .axchg p f => chPos p && th == .core && atomOk f
  | .acas p f => chPos p && th == .core && acasOk f
  | .afadd p f => chPos p && th == .core && atomOk f && !f.wd
  | .aswapv p f => chPos p && !p.hold && th == .core && aswapvOk f
  | .cpy p f => chPos p && !p.hold && th == .core && cpyOk f
  | .cpy2 p _ => chPos p && !p.hold && th == .core
  | .cpyn p _ => chPos p && !p.hold && th == .core
  | .cpysum p _ => chPos p && !p.hold && th == .core
  | .cwait p f => chPos p && !p.hold && th == .core && cwaitOk f
  | .cstat p f => chPos p && !p.hold && th == .core && cwaitOk f
  | .xlat p f => chPos p && !p.hold && th == .core && f.pd == 0
  | .hrel p f => chPos p && !p.hold && th == .core && f.xa == 0 && !f.pa && f.pd == 0 && !f.lg
  | .htest p f => chPos p && !p.hold && th == .core && f.xa == 0 && !f.pa && !f.lg
  | .queueSend a _ => agentOk a
  | .replyLands _ => true
  | .homeAccess _ => true
  | .homeAtomic _ => true
  | .waitvRetry c => coreId c
  | .balloonTake d => domeId d
  | .heldWriteAbandon d => domeId d
  | .refreshManagement d _ => domeId d
  | .peerRequest r =>
      (match r with
       | .read k _ n => k < 16 && peerSize n
       | .write k _ bs => k < 16 && peerSize bs.length
       | .atomic k _ op _ _ _ => k < 16 && 0x18 ≤ op.toNat && op.toNat ≤ 0x22
       | .swapv k _ _ => k < 16
       | .waitv k _ cond _ _ => k < 16 && cond < 6
       | .lease k _ _ => k < 16
       | .recall k _ _ => k < 16
       | .refuse k _ => k < 16)
  | .chimelinkLinkLoss k => k < 16
  | .lateFreeze g => (match g with | .core c => coreId c | .launch _ => true | .pair p => pairId p)
  | .freezeRelease g => (match g with | .core c => coreId c | .launch _ => true | .pair p => pairId p)
  | .freezeTimeout g => (match g with | .core c => coreId c | .launch _ => true | .pair p => pairId p)
  | .powerFreeze c => coreId c
  | .copyCommandStart c e => coreId c && e < 2
  | .copyChunk c e => coreId c && e < 2
  | .copyReport c e => coreId c && e < 2
  | .tlbFillLands c _ => coreId c
  | .leaseRecall _ cl => cl < 1040
  | .recallComplete _ => true
  | .userInterruptEntry c => coreId c
  | .trapReport c => coreId c
  | .rollback c => coreId c
  | .ibufReload c => coreId c
  | .lanternLoad _ d => domeId d
  | .lanternSegmentEnd pr => pairId pr
  | .lanternHalt pr => pairId pr
  | .lanternFault pr => pairId pr
  | .lanternFreeze pr => pairId pr
  | .bellArrival c b => coreId c && b < 8
  | .bellRelease _ b => b < 8
  | .post q => q < 64
  | .arbitration => true
  | .commandQueuePromotion q => q < 64
  | .leaderHandover q => q < 64
  | .launch h f => h.q < 64 && !f.resume
  | .launchResume h f => h.q < 64 && f.resume
  | .dispatchRelease _ => true
  | .coreFree c => coreId c
  | .launchComplete _ => true
  | .top h _ => h.q < 64
  | .copy h _ => h.q < 64
  | .waitev h _ => h.q < 64
  | .signal h _ => h.q < 64
  | .mapPages h _ => h.q < 64
  | .unmap h _ => h.q < 64
  | .migrate h _ => h.q < 64
  | .balloonDonate h _ => h.q < 64
  | .balloonReclaim h _ => h.q < 64
  | .setmodeRisePool h _ => h.q < 64
  | .setmodeCoalesce h _ => h.q < 64
  | .setmodePowerLimit h _ => h.q < 64
  | .fenceCommand h => h.q < 64
  | .complete h => h.q < 64
  | .preempt h _ => h.q < 64
  | .coreStop c => coreId c
  | .contextSave _ sp => sp < 128
  | .completionRecord q _ => q < 64
  | .coalescingWindowEnd q => q < 64
  | .interruptMessage => true
  | .notificationPost => true
  | .hostWindowRead pa n => peerSize n && (pa % n == 0 || postAddr pa)
  | .hostWindowWrite pa bs => peerSize bs.length && (pa % bs.length == 0 || postAddr pa)
  | .patchaddrWrite _ => true
  | .attaddrWrite _ => true
  | .bootctlGo _ => true
  | .injctlWrite c _ => coreId c
  | .dstatClear d _ => domeId d
  | .monctlWrite m _ => (match m with | .spire sp k => sp < 128 && k < 8 | .dome d k => d < 128 && k < 8)
  | .monitorSample m _ => (match m with | .spire sp k => sp < 128 && k < 8 | .dome d k => d < 128 && k < 8)
  | .registerWrite _ _ => true
  | .panelReset b =>
      b.flash.length == 512 && b.liveCore.length == 128 && b.liveLant.length == 128 && b.adders.length == 96 &&
        b.toffs.length == 16 && b.toffs.getD 0 0 == 0 && b.ports.length == 16 && b.noLead.all (· < 128)
  | .spireDieReset sp => sp < 128
  | .routerReset site => site < 256
  | .chimelinkLinkReturn k => k < 16
  | .uncorrectableEccError u =>
      (match u with
       | .phys _ => true
       | .scratch c sp _ => coreId c && sp < 4
       | .dict c _ => coreId c
       | .lantern p _ => pairId p)
  | .notificationRdptrWrite _ => true
  | .coreRetirement c => c < 16384
  | .eventCounterHostWrite _ _ => true

/-- An instruction a core's encodings, or an agent's step, admit; VRULE is an E-thread's (R73). -/
def Instr.wf (i : Instr) : Bool := legal .core i || legal .lanE i

end Sys2Proof
end

