-- ==== Sys2Proof/Machine/Num.lean ====
section
/-! DEFINITION. Number formats and exact arithmetic (R30 to R51): exact values, rounding, the tapered
formats, block scaling and the three transcendental functions. -/

namespace Sys2Proof.Machine

/-- An exact value or a special: a finite one is (-1)^neg * m * 2^e, and a zero keeps its sign. -/
inductive FVal where
  | nan
  | inf (neg : Bool)
  | fin (neg : Bool) (m : Nat) (e : Int)
  deriving DecidableEq, Repr

/-- A binary interchange format: exponent and fraction widths (R31). -/
structure FFmt where
  ew : Nat
  fw : Nat
  deriving DecidableEq, Repr

def fmtF16 : FFmt := ⟨5, 10⟩
def fmtBF16 : FFmt := ⟨8, 7⟩
def fmtF32 : FFmt := ⟨8, 23⟩

namespace FFmt
def bias (F : FFmt) : Nat := 2 ^ (F.ew - 1) - 1
/-- Exponent of the unit of the subnormal range. -/
def qmin (F : FFmt) : Int := 1 - (F.bias : Int) - F.fw
def infBits (F : FFmt) : Nat := (2 ^ F.ew - 1) * 2 ^ F.fw
def signBit (F : FFmt) : Nat := 2 ^ (F.ew + F.fw)
/-- The canonical NaN of R32. -/
def nanBits (F : FFmt) : Nat := F.infBits + 2 ^ (F.fw - 1)
end FFmt

/-- The value a pattern holds (R31, R32). -/
def unpack (F : FFmt) (b : Nat) : FVal :=
  let neg := b.testBit (F.ew + F.fw)
  let ex := b / 2 ^ F.fw % 2 ^ F.ew
  let fr := b % 2 ^ F.fw
  if ex == 2 ^ F.ew - 1 then (if fr == 0 then .inf neg else .nan)
  else if ex == 0 then .fin neg fr F.qmin
  else .fin neg (2 ^ F.fw + fr) (F.qmin + (ex - 1 : Nat))

/-- The four rounding modes of R33. -/
inductive RMode where
  | rne | rz | ru | rd
  deriving DecidableEq, Repr

def rmode (rm : BitVec 2) : RMode :=
  match rm.toNat with
  | 0 => .rne
  | 1 => .rz
  | 2 => .ru
  | _ => .rd

/-- The natural number that `m * 2^sh` rounds to, for a value of sign `neg`. -/
def roundShift (m : Nat) (sh : Int) (neg : Bool) (md : RMode) : Nat :=
  if 0 ≤ sh then m * 2 ^ sh.toNat
  else
    let d := 2 ^ (-sh).toNat
    let q := m / d
    let r := m % d
    let up := match md with
      | .rne => 2 * r > d || (2 * r == d && q % 2 == 1)
      | .rz => false
      | .ru => r > 0 && !neg
      | .rd => r > 0 && neg
    if up then q + 1 else q

/-- rnd(v, F, m) of R33, as a bit pattern. -/
def rnd (v : FVal) (F : FFmt) (md : RMode) : Nat :=
  match v with
  | .nan => F.nanBits
  | .inf neg => F.infBits + (if neg then F.signBit else 0)
  | .fin neg m e =>
    let sg := if neg then F.signBit else 0
    if m == 0 then sg
    else
      let q := max ((Nat.log2 m : Int) + e - F.fw) F.qmin
      let bits := (q - F.qmin).toNat * 2 ^ F.fw + roundShift m (e - q) neg md
      if bits < F.infBits then sg + bits
      else
        match md, neg with
        | .rne, _ => sg + F.infBits
        | .ru, false => sg + F.infBits
        | .rd, true => sg + F.infBits
        | _, _ => sg + (F.infBits - 1)

def fneg : FVal → FVal
  | .nan => .nan
  | .inf n => .inf (!n)
  | .fin n m e => .fin (!n) m e

def fabs : FVal → FVal
  | .nan => .nan
  | .inf _ => .inf false
  | .fin _ m e => .fin false m e

/-- The exact value with a signed mantissa. -/
def ofInt (v : Int) (e : Int) : FVal := .fin (v < 0) v.natAbs e

def signed (neg : Bool) (m : Nat) : Int := if neg then -(m : Int) else m

/-- Exact sum under IEEE 754-2019; a zero sum is -0 only where both are -0 or the mode is toward minus
infinity and they differ (R33, R138). -/
def fadd (md : RMode) (a b : FVal) : FVal :=
  match a, b with
  | .nan, _ => .nan
  | _, .nan => .nan
  | .inf x, .inf y => if x == y then .inf x else .nan
  | .inf x, .fin .. => .inf x
  | .fin .., .inf y => .inf y
  | .fin na ma ea, .fin nb mb eb =>
    let e := min ea eb
    let v := signed na (ma * 2 ^ (ea - e).toNat) + signed nb (mb * 2 ^ (eb - e).toNat)
    if v == 0 then
      (if ma == 0 && mb == 0 && na == nb then .fin na 0 e else .fin (md == .rd) 0 e)
    else ofInt v e

/-- Exact product under IEEE 754-2019. -/
def fmul (a b : FVal) : FVal :=
  match a, b with
  | .nan, _ => .nan
  | _, .nan => .nan
  | .inf x, .inf y => .inf (x != y)
  | .inf x, .fin nb mb _ => if mb == 0 then .nan else .inf (x != nb)
  | .fin na ma _, .inf y => if ma == 0 then .nan else .inf (na != y)
  | .fin na ma ea, .fin nb mb eb => .fin (na != nb) (ma * mb) (ea + eb)

/-- Scaling by a power of two, exactly. -/
def fscale (v : FVal) (k : Int) : FVal :=
  match v with
  | .fin n m e => .fin n m (e + k)
  | x => x

def fIsNan : FVal → Bool
  | .nan => true
  | _ => false
def fIsFinite : FVal → Bool
  | .fin .. => true
  | _ => false
def fIsZero : FVal → Bool
  | .fin _ m _ => m == 0
  | _ => false
def fIsNeg : FVal → Bool
  | .nan => false
  | .inf n => n
  | .fin n _ _ => n

/-- Order of two magnitudes m * 2^e. -/
def cmpMag (ma : Nat) (ea : Int) (mb : Nat) (eb : Int) : Ordering :=
  let e := min ea eb
  compare (ma * 2 ^ (ea - e).toNat) (mb * 2 ^ (eb - e).toNat)

/-- Position of a non-NaN value on the real line with infinities, for comparing: less, equal or greater;
the two zeros are equal. -/
def fcmp (a b : FVal) : Ordering :=
  match a, b with
  | .nan, _ => .eq
  | _, .nan => .eq
  | .inf x, .inf y => if x == y then .eq else if x then .lt else .gt
  | .inf x, .fin .. => if x then .lt else .gt
  | .fin .., .inf y => if y then .gt else .lt
  | .fin na ma ea, .fin nb mb eb =>
    let e := min ea eb
    compare (signed na (ma * 2 ^ (ea - e).toNat)) (signed nb (mb * 2 ^ (eb - e).toNat))

/-- rne32 of R33, kept as a value. -/
def rne32 (v : FVal) : FVal := unpack fmtF32 (rnd v fmtF32 .rne)

/-- fma32 of R33. -/
def fma32 (a b c : FVal) : FVal := rne32 (fadd .rne (fmul a b) c)

/-- The integer that a finite value rounds to. -/
def rndInt (neg : Bool) (m : Nat) (e : Int) (md : RMode) : Int := signed neg (roundShift m e neg md)

/-- wrap and sat of R30, over w bits. -/
def wrapN (v : Int) (w : Nat) : Nat := (v % (2 ^ w : Nat)).toNat
def asInt (sgn : Bool) (w : Nat) (b : Nat) : Int :=
  let b := b % 2 ^ w
  if sgn && b.testBit (w - 1) then (b : Int) - (2 ^ w : Nat) else b
def intMin (sgn : Bool) (w : Nat) : Int := if sgn then -((2 ^ (w - 1) : Nat) : Int) else 0
def intMax (sgn : Bool) (w : Nat) : Int := if sgn then ((2 ^ (w - 1) : Nat) : Int) - 1 else ((2 ^ w : Nat) : Int) - 1
def satI (v : Int) (sgn : Bool) (w : Nat) : Int := max (intMin sgn w) (min v (intMax sgn w))

/-- The two tapered formats by the width of their magnitude field: 7 for TF8, 5 for TF6 (R35). -/
def runLen (mag : Nat) (b : Bool) : Nat → Nat
  | 0 => 0
  | i + 1 => if mag.testBit i == b then 1 + runLen mag b i else 0

/-- The value of a nonzero magnitude field as mantissa and exponent (R35). -/
def tfMag (mb mag : Nat) : Nat × Int :=
  let top := mag.testBit (mb - 1)
  let k := runLen mag top mb
  let r : Int := if top then (k : Int) - 1 else -(k : Int)
  let rest := mb - k - 1
  let eb := if rest == 0 then 0 else mag / 2 ^ (rest - 1) % 2
  let fb := rest - 1
  let f := if rest == 0 then 0 else mag % 2 ^ fb
  (2 ^ fb + f, 2 * r + eb - fb)

/-- tfdec of R35 and R37. -/
def tfdec (mb c : Nat) : FVal :=
  let sg := c.testBit mb
  let mag := c % 2 ^ mb
  if mag == 0 then (if sg then .nan else .fin false 0 0)
  else .fin sg (tfMag mb mag).1 (tfMag mb mag).2

def tfIsNar (mb c : Nat) : Bool := c % 2 ^ (mb + 1) == 2 ^ mb
def tfIsZero (mb c : Nat) : Bool := c % 2 ^ (mb + 1) == 0

/-- The greatest magnitude code whose value does not exceed m * 2^e, built bit by bit. -/
def tfFloor (mb m : Nat) (e : Int) : Nat → Nat → Nat
  | 0, c => c
  | i + 1, c =>
    let c' := c + 2 ^ i
    let t := tfMag mb c'
    tfFloor mb m e i (if cmpMag t.1 t.2 m e == .gt then c else c')

/-- tfenc of R38. -/
def tfenc (mb : Nat) (v : FVal) : Nat :=
  match v with
  | .nan => 2 ^ mb
  | .inf _ => 2 ^ mb
  | .fin neg m e =>
    if m == 0 then 0
    else
      let c := tfFloor mb m e mb 0
      let code :=
        if c == 2 ^ mb - 1 then c
        else
          let lo := if c == 0 then (0, 0) else tfMag mb c
          let hi := tfMag mb (c + 1)
          let x := min lo.2 hi.2
          let mid := lo.1 * 2 ^ (lo.2 - x).toNat + hi.1 * 2 ^ (hi.2 - x).toNat
          match cmpMag (2 * m) e mid x with
          | .lt => c
          | .gt => c + 1
          | .eq => if c % 2 == 0 then c else c + 1
      if code == 0 then 0 else code + (if neg then 2 ^ mb else 0)

/-- Whether an encoding counts in the quantisation underflow counter (R39). -/
def tfUnder (mb : Nat) (v : FVal) : Bool :=
  tfenc mb v == 0 && (match v with | .fin false 0 _ => false | _ => true)

/-- INT8 quantisation of an exact value (R42), as a byte. -/
def quantI8 (v : FVal) : Nat :=
  match v with
  | .nan => 0
  | .inf neg => if neg then 128 else 127
  | .fin neg m e => wrapN (satI (rndInt neg m e .rne) true 8) 8

/-- The scale byte of R41 for amax = m * 2^e and the target exponent T. -/
def scaleByte (m : Nat) (e : Int) (t : Int) : Nat :=
  if m == 0 then 127 else (min (max ((Nat.log2 m : Int) + e - t + 127) 0) 254).toNat

/-- The larger of two magnitudes. -/
def maxMag (a b : Nat × Int) : Nat × Int := if cmpMag a.1 a.2 b.1 b.2 == .lt then b else a

/-- amax of R41 over a list of values. -/
def amaxOf (xs : List FVal) : Nat × Int :=
  xs.foldl (fun a x => match x with | .fin _ m e => maxMag a (m, e) | _ => a) (0, 0)

/-- The decomposition of R48: M in [2^23, 2^24) and E. -/
def decompose (m : Nat) (e : Int) : Nat × Int :=
  let l := Nat.log2 m
  if l ≤ 23 then (m * 2 ^ (23 - l), (l : Int) + e) else (m / 2 ^ (l - 23), (l : Int) + e)

def fOne : FVal := .fin false 1 0
def fHalf : FVal := .fin false 1 (-1)

/-- The reciprocal seed table of R49. -/
def trcp (i : Nat) : Nat := let d := 257 + 2 * i; (2 ^ 33 + d) / (2 * d)

/-- VRCP (R49). -/
def vrcpF (x : FVal) : FVal :=
  match x with
  | .nan => .nan
  | .inf n => .fin n 0 0
  | .fin n m e =>
    if m == 0 then .inf n
    else
      let d := decompose m e
      let y0 : FVal := .fin false (trcp (d.1 / 2 ^ 16 % 128)) (-24)
      let mm : FVal := .fin false d.1 (-23)
      let y1 := fma32 y0 (fma32 (fneg mm) y0 fOne) y0
      let y2 := fma32 y1 (fma32 (fneg mm) y1 fOne) y1
      let r := rne32 (fscale y2 (-d.2))
      if n then fneg r else r

/-- The largest t below the start value plus 2^k with t * t * a <= 2^55, built bit by bit. -/
def trsqAux (a : Nat) : Nat → Nat → Nat
  | 0, t => t
  | i + 1, t => let t' := t + 2 ^ i; trsqAux a i (if t' * t' * a ≤ 2 ^ 55 then t' else t)

/-- The reciprocal square root seed table of R50. -/
def trsq (j : Nat) : Nat :=
  trsqAux (if j < 64 then 129 + 2 * (j % 64) else 258 + 4 * (j % 64)) 25 0

/-- VRSQ (R50). -/
def vrsqF (x : FVal) : FVal :=
  match x with
  | .nan => .nan
  | .inf n => if n then .nan else .fin false 0 0
  | .fin n m e =>
    if m == 0 then .inf n
    else if n then .nan
    else
      let d := decompose m e
      let odd := d.2 % 2 == 1
      let j := (if odd then 64 else 0) + d.1 / 2 ^ 17 % 64
      let mm : FVal := .fin false d.1 (if odd then -22 else -23)
      let f := if odd then d.2 - 1 else d.2
      let h := fmul mm fHalf
      let y0 : FVal := .fin false (trsq j) (-24)
      let y1 := fma32 y0 (fma32 (fneg h) (rne32 (fmul y0 y0)) fHalf) y0
      let y2 := fma32 y1 (fma32 (fneg h) (rne32 (fmul y1 y1)) fHalf) y1
      rne32 (fscale y2 (-(f / 2)))

/-- The coefficients c[7] to c[0] of R51: rne32 of (ln 2)^k / k!. -/
def exp2Coef : List Nat :=
  [0x377FE5FE, 0x39218489, 0x3AAEC3FF, 0x3C1D955B, 0x3D635847, 0x3E75FDF0, 0x3F317218, 0x3F800000]

/-- VEXP2 (R51). -/
def vexp2F (x : FVal) : FVal :=
  match x with
  | .nan => .nan
  | .inf n => if n then .fin false 0 0 else .inf false
  | .fin neg m e =>
    if fcmp x (.fin false 128 0) != .lt then .inf false
    else if fcmp x (.fin true 160 0) == .lt then .fin false 0 0
    else
      let n := rndInt neg m e .rne
      let f := fadd .rne x (ofInt (-n) 0)
      match exp2Coef with
      | [] => .nan
      | c7 :: cs => rne32 (fscale (cs.foldl (fun p c => fma32 p f (unpack fmtF32 c)) (unpack fmtF32 c7)) n)

end Sys2Proof.Machine
end

