-- ==== Sys2Proof/Machine/LaneMath.lean ====
section
/-! DEFINITION. What scalar and vector operations compute, as functions of values alone: widths and
extensions (R111), lanes (R131), masks (R132), constants (R64) and every lane operation of the vector chapter. -/

namespace Sys2Proof.Machine

/-- A w-bit result pushed as 64 bits, by sign or zero extension (R111). -/
def extend (sgn : Bool) (w : Nat) (v : Int) : W64 := BitVec.ofInt 64 (asInt sgn w (wrapN v w))

/-- The low w bits of a source, as a natural number. -/
def lowBits (w : Nat) (v : W64) : Nat := v.toNat % 2 ^ w

/-- Division truncating toward zero with the two limits of R114; operands and result as integers. -/
def divT (w : Nat) (a b : Int) : Int := if b == 0 then (2 ^ w : Nat) - 1 else Int.tdiv a b
def remT (a b : Int) : Int := if b == 0 then a else Int.tmod a b

/-- Leading zeros of a w-bit value. -/
def clzN (w v : Nat) : Nat := if v == 0 then w else w - 1 - Nat.log2 v
/-- Trailing zeros, scanning up from bit `w - fuel`. -/
def ctzFrom (w v : Nat) : Nat → Nat
  | 0 => w
  | k + 1 => if v.testBit (w - (k + 1)) then w - (k + 1) else ctzFrom w v k
def ctzN (w v : Nat) : Nat := ctzFrom w v w
def popcN (v : Nat) : Nat → Nat
  | 0 => 0
  | k + 1 => (if v.testBit k then 1 else 0) + popcN v k
/-- Right shift by k of a w-bit value with copies of its top bit entering. -/
def sarN (w v k : Nat) : Nat := wrapN (asInt true w v / (2 ^ k : Nat)) w
/-- Rotation right of a w-bit value. -/
def rorN (w v k : Nat) : Nat := v / 2 ^ k + v % 2 ^ k * 2 ^ (w - k)

/-- Lane i of width b bytes (R131). -/
def getLane (b : Nat) (v : V512) (i : Nat) : Nat := v.toNat / 2 ^ (8 * b * i) % 2 ^ (8 * b)

/-- A vector from its lanes, lane 0 first; each value is taken to the lane width. -/
def packLanes (b : Nat) (xs : List Nat) : V512 :=
  BitVec.ofNat 512 (xs.foldr (fun x acc => x % 2 ^ (8 * b) + 2 ^ (8 * b) * acc) 0)

/-- The vector whose lane i is f i. -/
def genLanes (b : Nat) (f : Nat → Nat) : V512 := packLanes b ((List.range (64 / b)).map f)

/-- Whether lane i of width b is enabled by the mask A (R132). -/
def laneOn (b : Nat) (A : W64) (i : Nat) : Bool := A.getLsbD (i * b)

/-- The vector whose enabled lanes hold f and whose other lanes hold zero bits. -/
def maskLanes (b : Nat) (A : W64) (f : Nat → Nat) : V512 := genLanes b (fun i => if laneOn b A i then f i else 0)

/-- Whether a mask enables at least one lane of width b. -/
def anyLane (b : Nat) (A : W64) : Bool := (List.range (64 / b)).any (laneOn b A)

def floatFmt (ty : BitVec 4) : FFmt :=
  match ty.toNat with
  | 8 => fmtF16
  | 9 => fmtBF16
  | _ => fmtF32

/-- A lane of an integer type as an integer. -/
def laneInt (ty : BitVec 4) (v : Nat) : Int := asInt (isSigned ty) (8 * laneBytes ty) v
/-- A lane of a float type as a value. -/
def laneF (ty : BitVec 4) (v : Nat) : FVal := unpack (floatFmt ty) v

/-- What a constant code puts into lane i of a type (R64). -/
def constLane (code : Nat) (ty : BitVec 4) (i : Nat) : Nat :=
  let w := 8 * laneBytes ty
  let F := floatFmt ty
  let flt (v : FVal) : Nat := rnd v F .rne
  let tfTop := if ty.toNat == 11 then 127 else 31
  let tfSgn := if ty.toNat == 11 then 128 else 32
  let tfOne := if ty.toNat == 11 then 64 else 16
  let tfTwo := if ty.toNat == 11 then 0x50 else 0x14
  match code with
  | 1664 => 0
  | 1665 => if ty.toNat == 12 then 63 else 2 ^ w - 1
  | 1666 => if isFloat ty then flt (.fin false i 0) else i
  | 1667 => if isFloat ty then flt fOne else if isTF ty then tfOne else 1
  | 1668 => if isFloat ty then flt (fneg fOne) else if isTF ty then tfSgn + tfOne else 2 ^ w - 1
  | 1669 => flt fHalf
  | 1670 => if isFloat ty then flt (.fin false 2 0) else if isTF ty then tfTwo else 2
  | 1671 => if isFloat ty then F.infBits - 1 else if isTF ty then tfTop else wrapN (intMax (isSigned ty) w) w
  | 1672 => if isFloat ty then F.signBit + (F.infBits - 1) else if isTF ty then tfSgn + tfTop
            else wrapN (intMin (isSigned ty) w) w
  | 1673 => if isFloat ty then F.infBits else wrapN (intMax (isSigned ty) w) w
  | 1674 => if isFloat ty then F.signBit + F.infBits else wrapN (intMin (isSigned ty) w) w
  | _ => if isFloat ty then F.signBit else if isTF ty then tfSgn else if isSigned ty then 2 ^ (w - 1) else 0

def constVec (code : Nat) (ty : BitVec 4) : V512 := genLanes (laneBytes ty) (constLane code ty)

/-- A broadcast of a scalar's low lane-width bits (R133). -/
def bcastVec (ty : BitVec 4) (x : V512) : V512 := genLanes (laneBytes ty) (fun _ => x.toNat)

/-- Sum, difference, product, fused forms on one lane (R137). -/
def laneAdd (ty : BitVec 4) (md : RMode) (a b : Nat) : Nat :=
  if isFloat ty then rnd (fadd md (laneF ty a) (laneF ty b)) (floatFmt ty) md
  else wrapN (laneInt ty a + laneInt ty b) (8 * laneBytes ty)
def laneSub (ty : BitVec 4) (md : RMode) (a b : Nat) : Nat :=
  if isFloat ty then rnd (fadd md (laneF ty a) (fneg (laneF ty b))) (floatFmt ty) md
  else wrapN (laneInt ty a - laneInt ty b) (8 * laneBytes ty)
def laneMul (ty : BitVec 4) (md : RMode) (a b : Nat) : Nat :=
  if isFloat ty then rnd (fmul (laneF ty a) (laneF ty b)) (floatFmt ty) md
  else wrapN (laneInt ty a * laneInt ty b) (8 * laneBytes ty)
def laneFma (ty : BitVec 4) (md : RMode) (a b c : Nat) : Nat :=
  if isFloat ty then rnd (fadd md (fmul (laneF ty a) (laneF ty b)) (laneF ty c)) (floatFmt ty) md
  else wrapN (laneInt ty a * laneInt ty b + laneInt ty c) (8 * laneBytes ty)
def laneFms (ty : BitVec 4) (md : RMode) (a b c : Nat) : Nat :=
  if isFloat ty then rnd (fadd md (fmul (laneF ty a) (laneF ty b)) (fneg (laneF ty c))) (floatFmt ty) md
  else wrapN (laneInt ty a * laneInt ty b - laneInt ty c) (8 * laneBytes ty)
def laneSatOp (ty : BitVec 4) (v : Int) : Nat :=
  wrapN (satI v (isSigned ty) (8 * laneBytes ty)) (8 * laneBytes ty)
def laneMulh (ty : BitVec 4) (a b : Nat) : Nat :=
  wrapN (laneInt ty a * laneInt ty b / (2 ^ (8 * laneBytes ty) : Nat)) (8 * laneBytes ty)

/-- Whether float lane a orders below float lane b, -0 below +0 (R140). -/
def floatBelow (a b : FVal) : Bool :=
  match fcmp a b with
  | .lt => true
  | .gt => false
  | .eq => fIsNeg a && !fIsNeg b

def laneMin (ty : BitVec 4) (a b : Nat) : Nat :=
  if isFloat ty then
    (if fIsNan (laneF ty a) || fIsNan (laneF ty b) then (floatFmt ty).nanBits
     else if floatBelow (laneF ty b) (laneF ty a) then b else a)
  else if laneInt ty b < laneInt ty a then b else a
def laneMax (ty : BitVec 4) (a b : Nat) : Nat :=
  if isFloat ty then
    (if fIsNan (laneF ty a) || fIsNan (laneF ty b) then (floatFmt ty).nanBits
     else if floatBelow (laneF ty a) (laneF ty b) then b else a)
  else if laneInt ty a < laneInt ty b then b else a
def laneAbs (ty : BitVec 4) (a : Nat) : Nat :=
  if isFloat ty then a % (floatFmt ty).signBit
  else wrapN (laneInt ty a).natAbs (8 * laneBytes ty)
def laneNeg (ty : BitVec 4) (a : Nat) : Nat :=
  if isFloat ty then (if a < (floatFmt ty).signBit then a + (floatFmt ty).signBit else a - (floatFmt ty).signBit)
  else wrapN (-laneInt ty a) (8 * laneBytes ty)

/-- The four compare relations of R142. -/
inductive Rel where
  | eq | ne | lt | le
  deriving DecidableEq, Repr

def laneRel (r : Rel) (ty : BitVec 4) (a b : Nat) : Bool :=
  if isFloat ty then
    (if fIsNan (laneF ty a) || fIsNan (laneF ty b) then r == .ne
     else
      match r, fcmp (laneF ty a) (laneF ty b) with
      | .eq, o => o == .eq
      | .ne, o => o != .eq
      | .lt, o => o == .lt
      | .le, o => o != .gt)
  else
    match r with
    | .eq => laneInt ty a == laneInt ty b
    | .ne => laneInt ty a != laneInt ty b
    | .lt => laneInt ty a < laneInt ty b
    | .le => laneInt ty a ≤ laneInt ty b

/-- The predicate a vector compare writes (R142). -/
def cmpPred (r : Rel) (ty : BitVec 4) (A : W64) (a b : V512) : W64 :=
  let w := laneBytes ty
  BitVec.ofNat 64 (((List.range (64 / w)).map
    (fun i => if laneOn w A i && laneRel r ty (getLane w a i) (getLane w b i) then 2 ^ (i * w) * (2 ^ w - 1) else 0)).foldl
      (· + ·) 0)

/-- The conversion of one lane from type S to type T (R43, R143). -/
def cvtLane (S T : BitVec 4) (sat : Bool) (md : RMode) (v : Nat) : Nat :=
  let wT := 8 * laneBytes T
  if isInt S then
    (if isInt T then (if sat then wrapN (satI (laneInt S v) (isSigned T) wT) wT else wrapN (laneInt S v) wT)
     else rnd (ofInt (laneInt S v) 0) (floatFmt T) md)
  else if isInt T then
    (match laneF S v with
     | .nan => 0
     | .inf n => wrapN (if n then intMin (isSigned T) wT else intMax (isSigned T) wT) wT
     | .fin n m e => wrapN (satI (rndInt n m e md) (isSigned T) wT) wT)
  else rnd (laneF S v) (floatFmt T) md

/-- VCVT on whole vectors (R143). -/
def cvtVec (S T : BitVec 4) (sat : Bool) (part : Nat) (md : RMode) (A : W64) (a : V512) : V512 :=
  let wS := laneBytes S
  let wT := laneBytes T
  let nS := 64 / wS
  let nT := 64 / wT
  if wS ≤ wT then maskLanes wT A (fun i => cvtLane S T sat md (getLane wS a (part * nT + i)))
  else maskLanes wT A (fun j =>
    if part * nS ≤ j && j < part * nS + nS then cvtLane S T sat md (getLane wS a (j - part * nS)) else 0)

/-- Magnitude field width of a tapered type. -/
def tfBits (ty : BitVec 4) : Nat := if ty.toNat == 11 then 7 else 5
/-- The target exponent of R41: 3 for TF8, 2 for TF6, 6 for INT8. -/
def targetExp (ty : BitVec 4) : Int := if ty.toNat == 11 then 3 else if ty.toNat == 12 then 2 else 6

/-- VBSCALE (R144). Where m0 is −0 and no enabled lane of a is finite, the spec does not give the sign of the zero in lane 0: it is
+0 (DESIGN CHOICE). -/
def bscaleVec (ty : BitVec 4) (fin : Bool) (A : W64) (a b : V512) : V512 :=
  let m0 : Nat × Int := match unpack fmtF32 (getLane 4 b 0) with
    | .fin neg m e => if neg then (0, 0) else (m, e)
    | _ => (0, 0)
  let am := amaxOf (((List.range 16).filter (laneOn 4 A)).map (fun i => unpack fmtF32 (getLane 4 a i)))
  let m := maxMag m0 am
  if fin then BitVec.ofNat 512 (scaleByte m.1 m.2 (targetExp ty))
  else BitVec.ofNat 512 (rnd (.fin false m.1 m.2) fmtF32 .rne)

/-- The value an element of VQNT is encoded from, x * 2^-(s-127) (R145). -/
def qntVal (s x : Nat) : FVal := fscale (unpack fmtF32 x) (127 - (s : Int))
def qntCode (ty : BitVec 4) (v : FVal) : Nat := if isTF ty then tfenc (tfBits ty) v else quantI8 v

/-- VQNT (R145). -/
def qntVec (ty : BitVec 4) (part : Nat) (A : W64) (a b : V512) : V512 :=
  let s := getLane 1 b 0
  maskLanes 1 A (fun j =>
    if s == 255 || j / 16 != part then 0 else qntCode ty (qntVal s (getLane 4 a (j % 16))))

/-- How far VQNT raises the quantisation underflow counter (R39, R145). -/
def qntUnder (ty : BitVec 4) (part : Nat) (A : W64) (a b : V512) : Nat :=
  let s := getLane 1 b 0
  if s == 255 || !isTF ty then 0
  else ((List.range 16).filter (fun i =>
    laneOn 1 A (16 * part + i) && tfUnder (tfBits ty) (qntVal s (getLane 4 a i)))).length

/-- The value of a quantised element under a scale byte (R34, R40). -/
def dqntVal (ty : BitVec 4) (s c : Nat) : FVal :=
  if isTF ty then
    (if tfIsZero (tfBits ty) c then .fin false 0 0
     else if s == 255 then .nan
     else fscale (tfdec (tfBits ty) c) ((s : Int) - 127))
  else if c % 256 == 0 then .fin false 0 0
  else if s == 255 then .nan
  else fscale (ofInt (asInt true 8 c) 0) ((s : Int) - 127)

/-- VDQNT (R146). -/
def dqntVec (ty : BitVec 4) (md : RMode) (part : Nat) (A : W64) (a b : V512) : V512 :=
  maskLanes 4 A (fun i => rnd (dqntVal ty (getLane 1 b 0) (getLane 1 a (16 * part + i))) fmtF32 md)

/-- One level of the pairwise tree of R147: neighbours combine, an absent partner leaves the other. -/
def treeLevel (comb : Nat → Nat → Nat) : List (Option Nat) → List (Option Nat)
  | x :: y :: rest =>
    (match x, y with
     | some a, some b => some (comb a b)
     | some a, none => some a
     | none, y => y) :: treeLevel comb rest
  | xs => xs
def treeFold (comb : Nat → Nat → Nat) : Nat → List (Option Nat) → Nat
  | 0, xs => (xs.headD none).getD 0
  | k + 1, xs => treeFold comb k (treeLevel comb xs)

/-- A reduction over the enabled lanes (R147). -/
def redVec (comb : Nat → Nat → Nat) (ty : BitVec 4) (A : W64) (a : V512) : V512 :=
  let w := laneBytes ty
  let xs := (List.range (64 / w)).map (fun i => if laneOn w A i then some (getLane w a i) else none)
  packLanes w [treeFold comb 6 xs]

/-- The lane operations of the permute unit (R151), over the width of the type. -/
def permVec (b : Nat) (A : W64) (x y : V512) : V512 :=
  maskLanes b A (fun i => let j := getLane b y i; if j < 64 / b then getLane b x j else 0)
def shufVec (b m : Nat) (A : W64) (x : V512) : V512 := maskLanes b A (fun i => getLane b x (i ^^^ m))
def trnVec (b g : Nat) (part : Bool) (A : W64) (x y : V512) : V512 :=
  maskLanes b A (fun i =>
    let q := i.testBit g
    let e := (if q then i - 2 ^ g else i) + (if part then 2 ^ g else 0)
    if q then getLane b y e else getLane b x e)
def bcastLaneVec (b j : Nat) (A : W64) (x : V512) : V512 := maskLanes b A (fun _ => getLane b x j)
def laneVec (b j : Nat) (A : W64) (x y : V512) : V512 :=
  maskLanes b A (fun i => if i == j then getLane b y 0 else getLane b x i)
/-- Lane i of a‖b. -/
def catLane (b : Nat) (x y : V512) (i : Nat) : Nat :=
  if i < 64 / b then getLane b x i else getLane b y (i - 64 / b)
def rotVec (b m : Nat) (A : W64) (x y : V512) : V512 := maskLanes b A (fun i => catLane b x y (i + m))
def zipVec (b : Nat) (part : Bool) (A : W64) (x y : V512) : V512 :=
  maskLanes b A (fun i =>
    let h := i / 2 + (if part then 64 / b / 2 else 0)
    if i % 2 == 0 then getLane b x h else getLane b y h)
def unzipVec (b : Nat) (part : Bool) (A : W64) (x y : V512) : V512 :=
  maskLanes b A (fun i => catLane b x y (2 * i + (if part then 1 else 0)))

/-- A TF6 lane keeps bits [5:0] only; every other type keeps its lane (R131). -/
def trimTF6 (ty : BitVec 4) (v : V512) : V512 :=
  if ty.toNat == 12 then genLanes 1 (fun i => getLane 1 v i % 64) else v

/-- A one-source lane operation under a mask. -/
def map1 (ty : BitVec 4) (A : W64) (g : Nat → Nat) (a : V512) : V512 :=
  maskLanes (laneBytes ty) A (fun i => g (getLane (laneBytes ty) a i))
/-- A two-source lane operation under a mask. -/
def map2 (ty : BitVec 4) (A : W64) (g : Nat → Nat → Nat) (a b : V512) : V512 :=
  maskLanes (laneBytes ty) A (fun i => g (getLane (laneBytes ty) a i) (getLane (laneBytes ty) b i))
/-- A three-source lane operation under a mask. -/
def map3 (ty : BitVec 4) (A : W64) (g : Nat → Nat → Nat → Nat) (a b c : V512) : V512 :=
  maskLanes (laneBytes ty) A (fun i =>
    g (getLane (laneBytes ty) a i) (getLane (laneBytes ty) b i) (getLane (laneBytes ty) c i))

end Sys2Proof.Machine
end

