-- ==== Sys2Proof/Machine/MatMath.lean ====
section
/-! DEFINITION. The arithmetic that the matrix unit and the tile executors share: tile geometry (R154), block and plain
dot products (R44 to R46), and quantisation by blocks (R41, R42). -/

namespace Sys2Proof.Machine

/-- Lane type of an element format code 0 F32, 1 BF16, 2 F16, 3 TF8, 4 TF6, 5 INT8 (R158, R254). -/
def fmtTy (fmt : Nat) : BitVec 4 :=
  match fmt with
  | 0 => 10
  | 1 => 9
  | 2 => 8
  | 3 => 11
  | 4 => 12
  | _ => 0
def fmtBytes (fmt : Nat) : Nat := if fmt == 0 then 4 else if fmt ≤ 2 then 2 else 1
def fmtScaled (fmt : Nat) : Bool := 3 ≤ fmt
/-- kt and nt of R154. -/
def ktOf (fmt : Nat) : Nat := 128 / fmtBytes fmt
def roundUp (n m : Nat) : Nat := (n + m - 1) / m * m
def tileBytes (fmt trows : Nat) : Nat := trows * 128 + (if fmtScaled fmt then roundUp (2 * trows) 64 else 0)

/-- A code of a scaled format: zero, without a value, or its exact value as an integer times a power of two. -/
def codeVal (fmt c : Nat) : FVal :=
  if fmt == 5 then ofInt (asInt true 8 c) 0 else tfdec (if fmt == 3 then 7 else 5) c

/-- An exact value as a multiple of 2^-24. -/
def fix24 (v : FVal) : Int :=
  match v with
  | .fin n m e => signed n (if 0 ≤ e + 24 then m * 2 ^ (e + 24).toNat else m / 2 ^ (-(e + 24)).toNat)
  | _ => 0

/-- One K-block of R44: the accumulator and whether a NaR or a scale 0xFF took part. -/
def blockAcc (fa fb : Nat) (saBad sbBad : Bool) : List (Nat × Nat) → Int × Bool
  | [] => (0, false)
  | (a, b) :: l =>
    let r := blockAcc fa fb saBad sbBad l
    let va := codeVal fa a
    let vb := codeVal fb b
    if fIsZero va || fIsZero vb then r
    else if fIsNan va || fIsNan vb || saBad || sbBad then (r.1, true)
    else (r.1 + fix24 (fmul va vb), r.2)

/-- C after one K-block (R44). Where every product is skipped and C is -0, R44 adds +0 and R46 keeps -0: R44 is followed
(DEDUCED). -/
def blockMac (fa fb sa sb : Nat) (xs : List (Nat × Nat)) (C : FVal) : FVal :=
  let r := blockAcc fa fb (sa == 255) (sb == 255) xs
  let B := if r.2 then FVal.nan else rne32 (fscale (ofInt r.1 (-24)) ((sa : Int) - 127 + ((sb : Int) - 127)))
  rne32 (fadd .rne C B)

/-- C after the plain products of R45 in ascending order. -/
def plainMac (fa fb : Nat) : List (Nat × Nat) → FVal → FVal
  | [], C => C
  | (a, b) :: l, C =>
    let va := unpack (floatFmt (fmtTy fa)) a
    let vb := unpack (floatFmt (fmtTy fb)) b
    plainMac fa fb l (if fIsZero va || fIsZero vb then C else rne32 (fadd .rne C (rne32 (fmul va vb))))

/-- The blocks of 64 of a list of pairs with their two scales. -/
def scaledMac (fa fb : Nat) : List (Nat × Nat) → List (List (Nat × Nat)) → FVal → FVal
  | (sa, sb) :: ss, xs :: xss, C => scaledMac fa fb ss xss (blockMac fa fb sa sb xs C)
  | _, _, C => C

/-- A list cut into pieces of n. -/
def piecesOf {α : Type} (n : Nat) : Nat → List α → List (List α)
  | 0, _ => []
  | k + 1, l => if l.isEmpty then [] else l.take n :: piecesOf n k (l.drop n)

/-- A block quantised: scale byte, codes, and underflows counted (R38, R39, R41, R42). -/
def quantBlock (ty : BitVec 4) (xs : List FVal) : Nat × List Nat × Nat :=
  let m := amaxOf xs
  let sc := scaleByte m.1 m.2 (targetExp ty)
  let ys := xs.map (fun x => fscale x (127 - (sc : Int)))
  (sc, ys.map (qntCode ty), if isTF ty then (ys.filter (tfUnder (tfBits ty))).length else 0)

end Sys2Proof.Machine
end

