-- ==== Sys2Proof/Decode.lean ====
section
/-! DEFINITION. Decoding and encoding: the slot formats of R60 and R67 to R70 as numbers, the opcode maps of
R72 to R76, the bundle of R54 to R56 with its checks in the order of R63, the code stream of R77 and R78, and
the matrix microinstructions. -/

namespace Sys2Proof

def bit (n k : Nat) : Bool := n / 2 ^ k % 2 == 1
def b2n (b : Bool) : Nat := if b then 1 else 0
def fld (w n k : Nat) : BitVec w := BitVec.ofNat w (n / 2 ^ k)

/-- The payload of format S3 as a number, and the fields a payload holds. -/
def pkS3 (f : FmtS3) : Nat :=
  f.xd.toNat * 2 ^ 33 + f.xa.toNat * 2 ^ 27 + f.xb.toNat * 2 ^ 21 + b2n f.pa * 2 ^ 20 + b2n f.pb * 2 ^ 19 + f.sz.toNat * 2 ^ 17 + f.pc.toNat * 2 ^ 13
def unS3 (n : Nat) : FmtS3 :=
  ⟨fld 6 n 33, fld 6 n 27, fld 6 n 21, bit n 20, bit n 19, fld 2 n 17, fld 4 n 13⟩

/-- The payload of format SI as a number, and the fields a payload holds. -/
def pkSI (f : FmtSI) : Nat :=
  f.xd.toNat * 2 ^ 33 + f.xa.toNat * 2 ^ 27 + b2n f.pa * 2 ^ 26 + f.sz.toNat * 2 ^ 24 + f.imm.toNat * 2 ^ 0
def unSI (n : Nat) : FmtSI :=
  ⟨fld 6 n 33, fld 6 n 27, bit n 26, fld 2 n 24, fld 24 n 0⟩

/-- The payload of format SL as a number, and the fields a payload holds. -/
def pkSL (f : FmtSL) : Nat :=
  f.xd.toNat * 2 ^ 33 + f.imm.toNat * 2 ^ 1
def unSL (n : Nat) : FmtSL :=
  ⟨fld 6 n 33, fld 32 n 1⟩

/-- The payload of format SQ as a number, and the fields a payload holds. -/
def pkSQ (f : FmtSQ) : Nat :=
  f.pd.toNat * 2 ^ 35 + f.xa.toNat * 2 ^ 29 + f.xb.toNat * 2 ^ 23 + b2n f.pa * 2 ^ 22 + b2n f.pb * 2 ^ 21 + f.sz.toNat * 2 ^ 19
def unSQ (n : Nat) : FmtSQ :=
  ⟨fld 4 n 35, fld 6 n 29, fld 6 n 23, bit n 22, bit n 21, fld 2 n 19⟩

/-- The payload of format SP as a number, and the fields a payload holds. -/
def pkSP (f : FmtSP) : Nat :=
  f.pd.toNat * 2 ^ 35 + f.pa.toNat * 2 ^ 31 + f.pb.toNat * 2 ^ 27 + b2n f.ia * 2 ^ 26 + b2n f.ib * 2 ^ 25 + f.x.toNat * 2 ^ 19 + b2n f.px * 2 ^ 18
def unSP (n : Nat) : FmtSP :=
  ⟨fld 4 n 35, fld 4 n 31, fld 4 n 27, bit n 26, bit n 25, fld 6 n 19, bit n 18⟩

/-- The payload of format SJ as a number, and the fields a payload holds. -/
def pkSJ (f : FmtSJ) : Nat :=
  f.target.toNat * 2 ^ 15 + f.xa.toNat * 2 ^ 9 + b2n f.pa * 2 ^ 8 + f.nd.toNat * 2 ^ 5
def unSJ (n : Nat) : FmtSJ :=
  ⟨fld 24 n 15, fld 6 n 9, bit n 8, fld 3 n 5⟩

/-- The payload of format SK as a number, and the fields a payload holds. -/
def pkSK (f : FmtSK) : Nat :=
  f.x.toNat * 2 ^ 33 + b2n f.pa * 2 ^ 32 + f.cr.toNat * 2 ^ 24 + f.idx.toNat * 2 ^ 16
def unSK (n : Nat) : FmtSK :=
  ⟨fld 6 n 33, bit n 32, fld 8 n 24, fld 8 n 16⟩

/-- The payload of format SW as a number, and the fields a payload holds. -/
def pkSW (f : FmtSW) : Nat :=
  f.x.toNat * 2 ^ 33 + b2n f.pa * 2 ^ 32 + f.idx.toNat * 2 ^ 16
def unSW (n : Nat) : FmtSW :=
  ⟨fld 6 n 33, bit n 32, fld 8 n 16⟩

/-- The payload of format SN as a number, and the fields a payload holds. -/
def pkSN (f : FmtSN) : Nat :=
  f.bell.toNat * 2 ^ 36 + f.pd.toNat * 2 ^ 32 + f.code.toNat * 2 ^ 24
def unSN (n : Nat) : FmtSN :=
  ⟨fld 3 n 36, fld 4 n 32, fld 8 n 24⟩

/-- The payload of format V2 as a number, and the fields a payload holds. -/
def pkV2 (f : FmtV2) : Nat :=
  f.vd.toNat * 2 ^ 40 + f.va.toNat * 2 ^ 29 + f.vb.toNat * 2 ^ 18 + b2n f.pa * 2 ^ 17 + b2n f.pb * 2 ^ 16 + f.ty.toNat * 2 ^ 12 + f.rm.toNat * 2 ^ 10 + f.aux.toNat * 2 ^ 0
def unV2 (n : Nat) : FmtV2 :=
  ⟨fld 11 n 40, fld 11 n 29, fld 11 n 18, bit n 17, bit n 16, fld 4 n 12, fld 2 n 10, fld 10 n 0⟩

/-- The payload of format V3 as a number, and the fields a payload holds. -/
def pkV3 (f : FmtV3) : Nat :=
  f.vd.toNat * 2 ^ 40 + f.va.toNat * 2 ^ 29 + f.vb.toNat * 2 ^ 18 + f.vc.toNat * 2 ^ 7 + f.ty.toNat * 2 ^ 3 + f.rm.toNat * 2 ^ 1 + b2n f.pa * 2 ^ 0
def unV3 (n : Nat) : FmtV3 :=
  ⟨fld 11 n 40, fld 11 n 29, fld 11 n 18, fld 11 n 7, fld 4 n 3, fld 2 n 1, bit n 0⟩

/-- The payload of format MF as a number, and the fields a payload holds. -/
def pkMF (f : FmtMF) : Nat :=
  f.routine.toNat * 2 ^ 23 + f.ra.toNat * 2 ^ 20 + f.rb.toNat * 2 ^ 17
def unMF (n : Nat) : FmtMF :=
  ⟨fld 8 n 23, fld 3 n 20, fld 3 n 17⟩

/-- The payload of format MK as a number, and the fields a payload holds. -/
def pkMK (f : FmtMK) : Nat :=
  f.kj.toNat * 2 ^ 28 + f.xa.toNat * 2 ^ 22 + b2n f.pa * 2 ^ 21
def unMK (n : Nat) : FmtMK :=
  ⟨fld 3 n 28, fld 6 n 22, bit n 21⟩

/-- The payload of format MA as a number, and the fields a payload holds. -/
def pkMA (f : FmtMA) : Nat :=
  f.vq.toNat * 2 ^ 10 + b2n f.pv * 2 ^ 9
def unMA (n : Nat) : FmtMA :=
  ⟨fld 11 n 10, bit n 9⟩

/-- The payload of format MR as a number, and the fields a payload holds. -/
def pkMR (f : FmtMR) : Nat :=
  f.ring.toNat * 2 ^ 28 + f.xa.toNat * 2 ^ 22 + b2n f.pa * 2 ^ 21 + f.count.toNat * 2 ^ 9
def unMR (n : Nat) : FmtMR :=
  ⟨fld 3 n 28, fld 6 n 22, bit n 21, fld 12 n 9⟩

/-- The payload of format MD as a number, and the fields a payload holds. -/
def pkMD (f : FmtMD) : Nat :=
  f.fmt.toNat * 2 ^ 28 + f.xa.toNat * 2 ^ 22 + b2n f.pa * 2 ^ 21 + f.rm.toNat * 2 ^ 19
def unMD (n : Nat) : FmtMD :=
  ⟨fld 3 n 28, fld 6 n 22, bit n 21, fld 2 n 19⟩

/-- The payload of format MT as a number, and the fields a payload holds. -/
def pkMT (f : FmtMT) : Nat :=
  f.dd.toNat * 2 ^ 27 + f.ds1.toNat * 2 ^ 23 + f.ds2.toNat * 2 ^ 19 + f.aux.toNat * 2 ^ 11 + f.xt.toNat * 2 ^ 5 + b2n f.pt * 2 ^ 4
def unMT (n : Nat) : FmtMT :=
  ⟨fld 4 n 27, fld 4 n 23, fld 4 n 19, fld 8 n 11, fld 6 n 5, bit n 4⟩

/-- The payload of format CL as a number, and the fields a payload holds. -/
def pkCL (f : FmtCL) : Nat :=
  f.reg.toNat * 2 ^ 32 + f.sp.toNat * 2 ^ 29 + f.xa.toNat * 2 ^ 23 + b2n f.pa * 2 ^ 22 + b2n f.nx * 2 ^ 21 + f.sz.toNat * 2 ^ 18 + f.off.toNat * 2 ^ 0
def unCL (n : Nat) : FmtCL :=
  ⟨fld 11 n 32, fld 3 n 29, fld 6 n 23, bit n 22, bit n 21, fld 3 n 18, fld 18 n 0⟩

/-- The payload of format CH as a number, and the fields a payload holds. -/
def pkCH (f : FmtCH) : Nat :=
  f.reg.toNat * 2 ^ 32 + f.h.toNat * 2 ^ 27 + f.xo.toNat * 2 ^ 21 + b2n f.po * 2 ^ 20 + f.lat.toNat * 2 ^ 11 + f.sz.toNat * 2 ^ 8 + b2n f.nx * 2 ^ 7 + f.disp.toNat * 2 ^ 0
def unCH (n : Nat) : FmtCH :=
  ⟨fld 11 n 32, fld 5 n 27, fld 6 n 21, bit n 20, fld 9 n 11, fld 3 n 8, bit n 7, fld 7 n 0⟩

/-- The payload of format CA as a number, and the fields a payload holds. -/
def pkCA (f : FmtCA) : Nat :=
  f.xd.toNat * 2 ^ 37 + f.h.toNat * 2 ^ 32 + f.xo.toNat * 2 ^ 26 + f.xv.toNat * 2 ^ 20 + f.xc.toNat * 2 ^ 14 + f.lat.toNat * 2 ^ 5 + b2n f.wd * 2 ^ 4 + b2n f.nr * 2 ^ 3 + f.pk.toNat * 2 ^ 0
def unCA (n : Nat) : FmtCA :=
  ⟨fld 6 n 37, fld 5 n 32, fld 6 n 26, fld 6 n 20, fld 6 n 14, fld 9 n 5, bit n 4, bit n 3, fld 3 n 0⟩

/-- The payload of format CF as a number, and the fields a payload holds. -/
def pkCF (f : FmtCF) : Nat :=
  f.kind.toNat * 2 ^ 39
def unCF (n : Nat) : FmtCF :=
  ⟨fld 4 n 39⟩

/-- The payload of format CE as a number, and the fields a payload holds. -/
def pkCE (f : FmtCE) : Nat :=
  b2n f.eng * 2 ^ 42 + f.hs.toNat * 2 ^ 37 + f.hd.toNat * 2 ^ 32 + f.xr.toNat * 2 ^ 26 + b2n f.pr * 2 ^ 25 + b2n f.acq * 2 ^ 24 + b2n f.rel * 2 ^ 23 + f.xt.toNat * 2 ^ 17 + f.xs.toNat * 2 ^ 11 + b2n f.ps * 2 ^ 10
def unCE (n : Nat) : FmtCE :=
  ⟨bit n 42, fld 5 n 37, fld 5 n 32, fld 6 n 26, bit n 25, bit n 24, bit n 23, fld 6 n 17, fld 6 n 11, bit n 10⟩

/-- The payload of format CT as a number, and the fields a payload holds. -/
def pkCT (f : FmtCT) : Nat :=
  f.h.toNat * 2 ^ 38 + f.xa.toNat * 2 ^ 32 + b2n f.pa * 2 ^ 31 + f.pd.toNat * 2 ^ 27 + b2n f.lg * 2 ^ 26
def unCT (n : Nat) : FmtCT :=
  ⟨fld 5 n 38, fld 6 n 32, bit n 31, fld 4 n 27, bit n 26⟩

/-- Width of a slot position in bits (R54). -/
def slotWidth : Pos → Nat
  | .sc => 52
  | .va | .vb => 64
  | .mx => 44
  | .ca | .cb => 56

/-- The 13-bit lead of a slot of width w: opcode, hold, predicate, sense (R60). -/
def pkPre (p : Pre) (op : Nat) : Nat :=
  op * 2 ^ (slotWidth p.pos - 7) + b2n p.hold * 2 ^ (slotWidth p.pos - 8) +
    p.pred.toNat * 2 ^ (slotWidth p.pos - 12) + b2n p.sense * 2 ^ (slotWidth p.pos - 13)
def unPre (pos : Pos) (n : Nat) : Pre :=
  ⟨pos, bit n (slotWidth pos - 8), fld 4 n (slotWidth pos - 12), bit n (slotWidth pos - 13)⟩
def slotOpcode (pos : Pos) (n : Nat) : Nat := n / 2 ^ (slotWidth pos - 7) % 128
def slotBody (pos : Pos) (n : Nat) : Nat := n % 2 ^ (slotWidth pos - 13)

/-- The word of a slot instruction (R60, R67 to R75); any other constructor has no slot word. -/
def encodeSlot : Instr → Nat
  | .nop p => pkPre p 0x00
  | .mov p f => pkPre p 0x01 + pkS3 f
  | .movi p f => pkPre p 0x02 + pkSL f
  | .moviz p f => pkPre p 0x03 + pkSL f
  | .movih p f => pkPre p 0x04 + pkSL f
  | .sel p f => pkPre p 0x05 + pkS3 f
  | .add p f => pkPre p 0x08 + pkS3 f
  | .sub p f => pkPre p 0x09 + pkS3 f
  | .mul p f => pkPre p 0x0a + pkS3 f
  | .mulh p f => pkPre p 0x0b + pkS3 f
  | .mulhn p f => pkPre p 0x0c + pkS3 f
  | .div p f => pkPre p 0x0d + pkS3 f
  | .divn p f => pkPre p 0x0e + pkS3 f
  | .rem p f => pkPre p 0x0f + pkS3 f
  | .remn p f => pkPre p 0x10 + pkS3 f
  | .min p f => pkPre p 0x11 + pkS3 f
  | .max p f => pkPre p 0x12 + pkS3 f
  | .minn p f => pkPre p 0x13 + pkS3 f
  | .maxn p f => pkPre p 0x14 + pkS3 f
  | .abs p f => pkPre p 0x15 + pkS3 f
  | .and p f => pkPre p 0x18 + pkS3 f
  | .or p f => pkPre p 0x19 + pkS3 f
  | .xor p f => pkPre p 0x1a + pkS3 f
  | .andn p f => pkPre p 0x1b + pkS3 f
  | .clz p f => pkPre p 0x1d + pkS3 f
  | .ctz p f => pkPre p 0x1e + pkS3 f
  | .popc p f => pkPre p 0x1f + pkS3 f
  | .shl p f => pkPre p 0x20 + pkS3 f
  | .shr p f => pkPre p 0x21 + pkS3 f
  | .sar p f => pkPre p 0x22 + pkS3 f
  | .ror p f => pkPre p 0x23 + pkS3 f
  | .addi p f => pkPre p 0x28 + pkSI f
  | .andi p f => pkPre p 0x29 + pkSI f
  | .ori p f => pkPre p 0x2a + pkSI f
  | .xori p f => pkPre p 0x2b + pkSI f
  | .shli p f => pkPre p 0x2c + pkSI f
  | .shri p f => pkPre p 0x2d + pkSI f
  | .sari p f => pkPre p 0x2e + pkSI f
  | .cmpeq p f => pkPre p 0x30 + pkSQ f
  | .cmpne p f => pkPre p 0x31 + pkSQ f
  | .cmplt p f => pkPre p 0x32 + pkSQ f
  | .cmple p f => pkPre p 0x33 + pkSQ f
  | .cmpltn p f => pkPre p 0x34 + pkSQ f
  | .cmplen p f => pkPre p 0x35 + pkSQ f
  | .pand p f => pkPre p 0x38 + pkSP f
  | .por p f => pkPre p 0x39 + pkSP f
  | .pxor p f => pkPre p 0x3a + pkSP f
  | .pnot p f => pkPre p 0x3b + pkSP f
  | .pset p f => pkPre p 0x3c + pkSP f
  | .pget p f => pkPre p 0x3d + pkSP f
  | .br p f => pkPre p 0x40 + pkSJ f
  | .brx p f => pkPre p 0x41 + pkSJ f
  | .call p f => pkPre p 0x42 + pkSJ f
  | .ret p => pkPre p 0x43
  | .lset p f => pkPre p 0x48 + pkSK f
  | .lrun p f => pkPre p 0x49 + pkSJ f
  | .rdcr p f => pkPre p 0x50 + pkSK f
  | .wrcrUivec p f => pkPre p 0x51 + pkSW f + 9 * 2 ^ 24
  | .wrcrUistat p f => pkPre p 0x51 + pkSW f + 10 * 2 ^ 24
  | .trap p f => pkPre p 0x52 + pkSN f
  | .uiret p => pkPre p 0x53
  | .bell p f => pkPre p 0x58 + pkSN f
  | .bwait p f => pkPre p 0x59 + pkSN f
  | .btest p f => pkPre p 0x5a + pkSN f
  | .bexcuse p f => pkPre p 0x5b + pkSN f
  | .vnop p => pkPre p 0x00
  | .vmov p f => pkPre p 0x01 + pkV2 f
  | .vsel p f => pkPre p 0x02 + pkV3 f
  | .vadd p f => pkPre p 0x08 + pkV2 f
  | .vsub p f => pkPre p 0x09 + pkV2 f
  | .vmul p f => pkPre p 0x0a + pkV2 f
  | .vfma p f => pkPre p 0x0b + pkV3 f
  | .vfms p f => pkPre p 0x0c + pkV3 f
  | .vadds p f => pkPre p 0x0d + pkV2 f
  | .vsubs p f => pkPre p 0x0e + pkV2 f
  | .vmulh p f => pkPre p 0x0f + pkV2 f
  | .vmin p f => pkPre p 0x10 + pkV2 f
  | .vmax p f => pkPre p 0x11 + pkV2 f
  | .vabs p f => pkPre p 0x12 + pkV2 f
  | .vneg p f => pkPre p 0x13 + pkV2 f
  | .vand p f => pkPre p 0x18 + pkV2 f
  | .vor p f => pkPre p 0x19 + pkV2 f
  | .vxor p f => pkPre p 0x1a + pkV2 f
  | .vandn p f => pkPre p 0x1b + pkV2 f
  | .vshl p f => pkPre p 0x1c + pkV2 f
  | .vshr p f => pkPre p 0x1d + pkV2 f
  | .vsar p f => pkPre p 0x1e + pkV2 f
  | .vcmpeq p f => pkPre p 0x20 + pkV2 f
  | .vcmpne p f => pkPre p 0x21 + pkV2 f
  | .vcmplt p f => pkPre p 0x22 + pkV2 f
  | .vcmple p f => pkPre p 0x23 + pkV2 f
  | .vcvt p f => pkPre p 0x28 + pkV2 f
  | .vqnt p f => pkPre p 0x29 + pkV2 f
  | .vbscale p f => pkPre p 0x2a + pkV2 f
  | .vdqnt p f => pkPre p 0x2b + pkV2 f
  | .vredadd p f => pkPre p 0x30 + pkV2 f
  | .vredmax p f => pkPre p 0x31 + pkV2 f
  | .vredmin p f => pkPre p 0x32 + pkV2 f
  | .vpopc p f => pkPre p 0x33 + pkV2 f
  | .vclz p f => pkPre p 0x34 + pkV2 f
  | .vexp2 p f => pkPre p 0x38 + pkV2 f
  | .vrcp p f => pkPre p 0x39 + pkV2 f
  | .vrsq p f => pkPre p 0x3a + pkV2 f
  | .vperm p f => pkPre p 0x40 + pkV2 f
  | .vshuf p f => pkPre p 0x41 + pkV2 f
  | .vtrn p f => pkPre p 0x42 + pkV2 f
  | .vbcast p f => pkPre p 0x43 + pkV2 f
  | .vlane p f => pkPre p 0x44 + pkV2 f
  | .vrot p f => pkPre p 0x45 + pkV2 f
  | .vzip p f => pkPre p 0x46 + pkV2 f
  | .vunzip p f => pkPre p 0x47 + pkV2 f
  | .vrule p f => pkPre p 0x48 + pkV2 f
  | .mnop p => pkPre p 0x00
  | .mcall p f => pkPre p 0x01 + pkMF f
  | .msetk p f => pkPre p 0x02 + pkMK f
  | .msetkAll p f => pkPre p 0x02 + pkMA f + 2 ^ 8
  | .mring p f => pkPre p 0x03 + pkMR f
  | .madv p f => pkPre p 0x04 + pkMR f
  | .mdrain p f => pkPre p 0x05 + pkMD f
  | .mwait p => pkPre p 0x06
  | .tadd p f => pkPre p 0x10 + pkMT f
  | .tsub p f => pkPre p 0x11 + pkMT f
  | .tmul p f => pkPre p 0x12 + pkMT f
  | .tmax p f => pkPre p 0x13 + pkMT f
  | .tmin p f => pkPre p 0x14 + pkMT f
  | .tmm p f => pkPre p 0x15 + pkMT f
  | .tred p f => pkPre p 0x16 + pkMT f
  | .tcvt p f => pkPre p 0x17 + pkMT f
  | .tcopy p f => pkPre p 0x18 + pkMT f
  | .tsmax p f => pkPre p 0x19 + pkMT f
  | .tact p f => pkPre p 0x1a + pkMT f
  | .tgv p f => pkPre p 0x1b + pkMT f
  | .twait p f => pkPre p 0x1c + pkMT f
  | .twhere p f => pkPre p 0x1d + pkMT f
  | .tallred p f => pkPre p 0x20 + pkMT f
  | .tgather p f => pkPre p 0x21 + pkMT f
  | .tbcast p f => pkPre p 0x22 + pkMT f
  | .cnop p => pkPre p 0x00
  | .lds p f => pkPre p 0x01 + pkCL f
  | .sts p f => pkPre p 0x02 + pkCL f
  | .ldvs p f => pkPre p 0x03 + pkCL f
  | .stvs p f => pkPre p 0x04 + pkCL f
  | .spill p f => pkPre p 0x05 + pkCL f
  | .fill p f => pkPre p 0x06 + pkCL f
  | .ld p f => pkPre p 0x08 + pkCH f
  | .st p f => pkPre p 0x09 + pkCH f
  | .ldv p f => pkPre p 0x0a + pkCH f
  | .stv p f => pkPre p 0x0b + pkCH f
  | .gset p f => pkPre p 0x0c + pkCH f
  | .dld p f => pkPre p 0x0d + pkCH f
  | .lda p f => pkPre p 0x10 + pkCH f
  | .stl p f => pkPre p 0x11 + pkCH f
  | .fence p f => pkPre p 0x12 + pkCF f
  | .mark p => pkPre p 0x13
  | .waitv p f => pkPre p 0x14 + pkCA f
  | .aadd p f => pkPre p 0x18 + pkCA f
  | .amin p f => pkPre p 0x19 + pkCA f
  | .amax p f => pkPre p 0x1a + pkCA f
  | .aminn p f => pkPre p 0x1b + pkCA f
  | .amaxn p f => pkPre p 0x1c + pkCA f
  | .aand p f => pkPre p 0x1d + pkCA f
  | .aor p f => pkPre p 0x1e + pkCA f
  | .axor p f => pkPre p 0x1f + pkCA f
  | .axchg p f => pkPre p 0x20 + pkCA f
  | .acas p f => pkPre p 0x21 + pkCA f
  | .afadd p f => pkPre p 0x22 + pkCA f
  | .aswapv p f => pkPre p 0x23 + pkCH f
  | .cpy p f => pkPre p 0x28 + pkCE f
  | .cpy2 p f => pkPre p 0x29 + pkCE f
  | .cpyn p f => pkPre p 0x2a + pkCE f
  | .cpysum p f => pkPre p 0x2b + pkCE f
  | .cwait p f => pkPre p 0x2c + pkCE f
  | .cstat p f => pkPre p 0x2d + pkCE f
  | .xlat p f => pkPre p 0x30 + pkCT f
  | .hrel p f => pkPre p 0x31 + pkCT f
  | .htest p f => pkPre p 0x32 + pkCT f
  | _ => 0

/-- The slot lead of a slot instruction. -/
def preOf : Instr → Option Pre
  | .nop p => some p
  | .mov p _ => some p
  | .movi p _ => some p
  | .moviz p _ => some p
  | .movih p _ => some p
  | .sel p _ => some p
  | .add p _ => some p
  | .sub p _ => some p
  | .mul p _ => some p
  | .mulh p _ => some p
  | .mulhn p _ => some p
  | .div p _ => some p
  | .divn p _ => some p
  | .rem p _ => some p
  | .remn p _ => some p
  | .min p _ => some p
  | .max p _ => some p
  | .minn p _ => some p
  | .maxn p _ => some p
  | .abs p _ => some p
  | .and p _ => some p
  | .or p _ => some p
  | .xor p _ => some p
  | .andn p _ => some p
  | .clz p _ => some p
  | .ctz p _ => some p
  | .popc p _ => some p
  | .shl p _ => some p
  | .shr p _ => some p
  | .sar p _ => some p
  | .ror p _ => some p
  | .addi p _ => some p
  | .andi p _ => some p
  | .ori p _ => some p
  | .xori p _ => some p
  | .shli p _ => some p
  | .shri p _ => some p
  | .sari p _ => some p
  | .cmpeq p _ => some p
  | .cmpne p _ => some p
  | .cmplt p _ => some p
  | .cmple p _ => some p
  | .cmpltn p _ => some p
  | .cmplen p _ => some p
  | .pand p _ => some p
  | .por p _ => some p
  | .pxor p _ => some p
  | .pnot p _ => some p
  | .pset p _ => some p
  | .pget p _ => some p
  | .br p _ => some p
  | .brx p _ => some p
  | .call p _ => some p
  | .ret p => some p
  | .lset p _ => some p
  | .lrun p _ => some p
  | .rdcr p _ => some p
  | .wrcrUivec p _ => some p
  | .wrcrUistat p _ => some p
  | .trap p _ => some p
  | .uiret p => some p
  | .bell p _ => some p
  | .bwait p _ => some p
  | .btest p _ => some p
  | .bexcuse p _ => some p
  | .vnop p => some p
  | .vmov p _ => some p
  | .vsel p _ => some p
  | .vadd p _ => some p
  | .vsub p _ => some p
  | .vmul p _ => some p
  | .vfma p _ => some p
  | .vfms p _ => some p
  | .vadds p _ => some p
  | .vsubs p _ => some p
  | .vmulh p _ => some p
  | .vmin p _ => some p
  | .vmax p _ => some p
  | .vabs p _ => some p
  | .vneg p _ => some p
  | .vand p _ => some p
  | .vor p _ => some p
  | .vxor p _ => some p
  | .vandn p _ => some p
  | .vshl p _ => some p
  | .vshr p _ => some p
  | .vsar p _ => some p
  | .vcmpeq p _ => some p
  | .vcmpne p _ => some p
  | .vcmplt p _ => some p
  | .vcmple p _ => some p
  | .vcvt p _ => some p
  | .vqnt p _ => some p
  | .vbscale p _ => some p
  | .vdqnt p _ => some p
  | .vredadd p _ => some p
  | .vredmax p _ => some p
  | .vredmin p _ => some p
  | .vpopc p _ => some p
  | .vclz p _ => some p
  | .vexp2 p _ => some p
  | .vrcp p _ => some p
  | .vrsq p _ => some p
  | .vperm p _ => some p
  | .vshuf p _ => some p
  | .vtrn p _ => some p
  | .vbcast p _ => some p
  | .vlane p _ => some p
  | .vrot p _ => some p
  | .vzip p _ => some p
  | .vunzip p _ => some p
  | .vrule p _ => some p
  | .mnop p => some p
  | .mcall p _ => some p
  | .msetk p _ => some p
  | .msetkAll p _ => some p
  | .mring p _ => some p
  | .madv p _ => some p
  | .mdrain p _ => some p
  | .mwait p => some p
  | .tadd p _ => some p
  | .tsub p _ => some p
  | .tmul p _ => some p
  | .tmax p _ => some p
  | .tmin p _ => some p
  | .tmm p _ => some p
  | .tred p _ => some p
  | .tcvt p _ => some p
  | .tcopy p _ => some p
  | .tsmax p _ => some p
  | .tact p _ => some p
  | .tgv p _ => some p
  | .twait p _ => some p
  | .twhere p _ => some p
  | .tallred p _ => some p
  | .tgather p _ => some p
  | .tbcast p _ => some p
  | .cnop p => some p
  | .lds p _ => some p
  | .sts p _ => some p
  | .ldvs p _ => some p
  | .stvs p _ => some p
  | .spill p _ => some p
  | .fill p _ => some p
  | .ld p _ => some p
  | .st p _ => some p
  | .ldv p _ => some p
  | .stv p _ => some p
  | .gset p _ => some p
  | .dld p _ => some p
  | .lda p _ => some p
  | .stl p _ => some p
  | .fence p _ => some p
  | .mark p => some p
  | .waitv p _ => some p
  | .aadd p _ => some p
  | .amin p _ => some p
  | .amax p _ => some p
  | .aminn p _ => some p
  | .amaxn p _ => some p
  | .aand p _ => some p
  | .aor p _ => some p
  | .axor p _ => some p
  | .axchg p _ => some p
  | .acas p _ => some p
  | .afadd p _ => some p
  | .aswapv p _ => some p
  | .cpy p _ => some p
  | .cpy2 p _ => some p
  | .cpyn p _ => some p
  | .cpysum p _ => some p
  | .cwait p _ => some p
  | .cstat p _ => some p
  | .xlat p _ => some p
  | .hrel p _ => some p
  | .htest p _ => some p
  | _ => none

/-- The SC opcode map (R72): the instruction an opcode and payload name, none for a reserved value. -/
def scMap (op : Nat) (p : Pre) (b : Nat) : Option Instr :=
  match op with
  | 0x00 => some (.nop p)
  | 0x01 => some (.mov p (unS3 b))
  | 0x02 => some (.movi p (unSL b))
  | 0x03 => some (.moviz p (unSL b))
  | 0x04 => some (.movih p (unSL b))
  | 0x05 => some (.sel p (unS3 b))
  | 0x08 => some (.add p (unS3 b))
  | 0x09 => some (.sub p (unS3 b))
  | 0x0a => some (.mul p (unS3 b))
  | 0x0b => some (.mulh p (unS3 b))
  | 0x0c => some (.mulhn p (unS3 b))
  | 0x0d => some (.div p (unS3 b))
  | 0x0e => some (.divn p (unS3 b))
  | 0x0f => some (.rem p (unS3 b))
  | 0x10 => some (.remn p (unS3 b))
  | 0x11 => some (.min p (unS3 b))
  | 0x12 => some (.max p (unS3 b))
  | 0x13 => some (.minn p (unS3 b))
  | 0x14 => some (.maxn p (unS3 b))
  | 0x15 => some (.abs p (unS3 b))
  | 0x18 => some (.and p (unS3 b))
  | 0x19 => some (.or p (unS3 b))
  | 0x1a => some (.xor p (unS3 b))
  | 0x1b => some (.andn p (unS3 b))
  | 0x1d => some (.clz p (unS3 b))
  | 0x1e => some (.ctz p (unS3 b))
  | 0x1f => some (.popc p (unS3 b))
  | 0x20 => some (.shl p (unS3 b))
  | 0x21 => some (.shr p (unS3 b))
  | 0x22 => some (.sar p (unS3 b))
  | 0x23 => some (.ror p (unS3 b))
  | 0x28 => some (.addi p (unSI b))
  | 0x29 => some (.andi p (unSI b))
  | 0x2a => some (.ori p (unSI b))
  | 0x2b => some (.xori p (unSI b))
  | 0x2c => some (.shli p (unSI b))
  | 0x2d => some (.shri p (unSI b))
  | 0x2e => some (.sari p (unSI b))
  | 0x30 => some (.cmpeq p (unSQ b))
  | 0x31 => some (.cmpne p (unSQ b))
  | 0x32 => some (.cmplt p (unSQ b))
  | 0x33 => some (.cmple p (unSQ b))
  | 0x34 => some (.cmpltn p (unSQ b))
  | 0x35 => some (.cmplen p (unSQ b))
  | 0x38 => some (.pand p (unSP b))
  | 0x39 => some (.por p (unSP b))
  | 0x3a => some (.pxor p (unSP b))
  | 0x3b => some (.pnot p (unSP b))
  | 0x3c => some (.pset p (unSP b))
  | 0x3d => some (.pget p (unSP b))
  | 0x40 => some (.br p (unSJ b))
  | 0x41 => some (.brx p (unSJ b))
  | 0x42 => some (.call p (unSJ b))
  | 0x43 => some (.ret p)
  | 0x48 => some (.lset p (unSK b))
  | 0x49 => some (.lrun p (unSJ b))
  | 0x50 => some (.rdcr p (unSK b))
  | 0x51 => some (if (fld 8 b 24 : BitVec 8) == 10 then .wrcrUistat p (unSW b) else .wrcrUivec p (unSW b))
  | 0x52 => some (.trap p (unSN b))
  | 0x53 => some (.uiret p)
  | 0x58 => some (.bell p (unSN b))
  | 0x59 => some (.bwait p (unSN b))
  | 0x5a => some (.btest p (unSN b))
  | 0x5b => some (.bexcuse p (unSN b))
  | _ => none

/-- The vector opcode map (R73): the instruction an opcode and payload name, none for a reserved value. -/
def vMap (op : Nat) (p : Pre) (b : Nat) : Option Instr :=
  match op with
  | 0x00 => some (.vnop p)
  | 0x01 => some (.vmov p (unV2 b))
  | 0x02 => some (.vsel p (unV3 b))
  | 0x08 => some (.vadd p (unV2 b))
  | 0x09 => some (.vsub p (unV2 b))
  | 0x0a => some (.vmul p (unV2 b))
  | 0x0b => some (.vfma p (unV3 b))
  | 0x0c => some (.vfms p (unV3 b))
  | 0x0d => some (.vadds p (unV2 b))
  | 0x0e => some (.vsubs p (unV2 b))
  | 0x0f => some (.vmulh p (unV2 b))
  | 0x10 => some (.vmin p (unV2 b))
  | 0x11 => some (.vmax p (unV2 b))
  | 0x12 => some (.vabs p (unV2 b))
  | 0x13 => some (.vneg p (unV2 b))
  | 0x18 => some (.vand p (unV2 b))
  | 0x19 => some (.vor p (unV2 b))
  | 0x1a => some (.vxor p (unV2 b))
  | 0x1b => some (.vandn p (unV2 b))
  | 0x1c => some (.vshl p (unV2 b))
  | 0x1d => some (.vshr p (unV2 b))
  | 0x1e => some (.vsar p (unV2 b))
  | 0x20 => some (.vcmpeq p (unV2 b))
  | 0x21 => some (.vcmpne p (unV2 b))
  | 0x22 => some (.vcmplt p (unV2 b))
  | 0x23 => some (.vcmple p (unV2 b))
  | 0x28 => some (.vcvt p (unV2 b))
  | 0x29 => some (.vqnt p (unV2 b))
  | 0x2a => some (.vbscale p (unV2 b))
  | 0x2b => some (.vdqnt p (unV2 b))
  | 0x30 => some (.vredadd p (unV2 b))
  | 0x31 => some (.vredmax p (unV2 b))
  | 0x32 => some (.vredmin p (unV2 b))
  | 0x33 => some (.vpopc p (unV2 b))
  | 0x34 => some (.vclz p (unV2 b))
  | 0x38 => some (.vexp2 p (unV2 b))
  | 0x39 => some (.vrcp p (unV2 b))
  | 0x3a => some (.vrsq p (unV2 b))
  | 0x40 => some (.vperm p (unV2 b))
  | 0x41 => some (.vshuf p (unV2 b))
  | 0x42 => some (.vtrn p (unV2 b))
  | 0x43 => some (.vbcast p (unV2 b))
  | 0x44 => some (.vlane p (unV2 b))
  | 0x45 => some (.vrot p (unV2 b))
  | 0x46 => some (.vzip p (unV2 b))
  | 0x47 => some (.vunzip p (unV2 b))
  | 0x48 => some (.vrule p (unV2 b))
  | _ => none

/-- The MX opcode map (R74): the instruction an opcode and payload name, none for a reserved value. -/
def mxMap (op : Nat) (p : Pre) (b : Nat) : Option Instr :=
  match op with
  | 0x00 => some (.mnop p)
  | 0x01 => some (.mcall p (unMF b))
  | 0x02 => some (if bit b 8 then .msetkAll p (unMA b) else .msetk p (unMK b))
  | 0x03 => some (.mring p (unMR b))
  | 0x04 => some (.madv p (unMR b))
  | 0x05 => some (.mdrain p (unMD b))
  | 0x06 => some (.mwait p)
  | 0x10 => some (.tadd p (unMT b))
  | 0x11 => some (.tsub p (unMT b))
  | 0x12 => some (.tmul p (unMT b))
  | 0x13 => some (.tmax p (unMT b))
  | 0x14 => some (.tmin p (unMT b))
  | 0x15 => some (.tmm p (unMT b))
  | 0x16 => some (.tred p (unMT b))
  | 0x17 => some (.tcvt p (unMT b))
  | 0x18 => some (.tcopy p (unMT b))
  | 0x19 => some (.tsmax p (unMT b))
  | 0x1a => some (.tact p (unMT b))
  | 0x1b => some (.tgv p (unMT b))
  | 0x1c => some (.twait p (unMT b))
  | 0x1d => some (.twhere p (unMT b))
  | 0x20 => some (.tallred p (unMT b))
  | 0x21 => some (.tgather p (unMT b))
  | 0x22 => some (.tbcast p (unMT b))
  | _ => none

/-- The channel opcode map (R75): the instruction an opcode and payload name, none for a reserved value. -/
def chMap (op : Nat) (p : Pre) (b : Nat) : Option Instr :=
  match op with
  | 0x00 => some (.cnop p)
  | 0x01 => some (.lds p (unCL b))
  | 0x02 => some (.sts p (unCL b))
  | 0x03 => some (.ldvs p (unCL b))
  | 0x04 => some (.stvs p (unCL b))
  | 0x05 => some (.spill p (unCL b))
  | 0x06 => some (.fill p (unCL b))
  | 0x08 => some (.ld p (unCH b))
  | 0x09 => some (.st p (unCH b))
  | 0x0a => some (.ldv p (unCH b))
  | 0x0b => some (.stv p (unCH b))
  | 0x0c => some (.gset p (unCH b))
  | 0x0d => some (.dld p (unCH b))
  | 0x10 => some (.lda p (unCH b))
  | 0x11 => some (.stl p (unCH b))
  | 0x12 => some (.fence p (unCF b))
  | 0x13 => some (.mark p)
  | 0x14 => some (.waitv p (unCA b))
  | 0x18 => some (.aadd p (unCA b))
  | 0x19 => some (.amin p (unCA b))
  | 0x1a => some (.amax p (unCA b))
  | 0x1b => some (.aminn p (unCA b))
  | 0x1c => some (.amaxn p (unCA b))
  | 0x1d => some (.aand p (unCA b))
  | 0x1e => some (.aor p (unCA b))
  | 0x1f => some (.axor p (unCA b))
  | 0x20 => some (.axchg p (unCA b))
  | 0x21 => some (.acas p (unCA b))
  | 0x22 => some (.afadd p (unCA b))
  | 0x23 => some (.aswapv p (unCH b))
  | 0x28 => some (.cpy p (unCE b))
  | 0x29 => some (.cpy2 p (unCE b))
  | 0x2a => some (.cpyn p (unCE b))
  | 0x2b => some (.cpysum p (unCE b))
  | 0x2c => some (.cwait p (unCE b))
  | 0x2d => some (.cstat p (unCE b))
  | 0x30 => some (.xlat p (unCT b))
  | 0x31 => some (.hrel p (unCT b))
  | 0x32 => some (.htest p (unCT b))
  | _ => none

/-! Cause codes of the decoding faults (R376). -/
def causeIllegalOp : BitVec 8 := 0x01
def causeIllegalField : BitVec 8 := 0x02
def causeIllegalBundle : BitVec 8 := 0x03
def causeIllegalSlot : BitVec 8 := 0x04
def causeIllegalIndex : BitVec 8 := 0x05
def causeIbufError : BitVec 8 := 0x12

/-- The opcode map of a slot position (R72 to R75). -/
def slotMap (pos : Pos) (op : Nat) (p : Pre) (b : Nat) : Option Instr :=
  match pos with
  | .sc => scMap op p b
  | .va => vMap op p b
  | .vb => vMap op p b
  | .mx => mxMap op p b
  | .ca => chMap op p b
  | .cb => chMap op p b

/-- The vector forms that only VB takes (R73). -/
def vbOnly : Instr → Bool
  | .vperm .. | .vshuf .. | .vtrn .. | .vbcast .. | .vlane .. | .vrot .. | .vzip .. | .vunzip .. => true
  | .vrule .. => true
  | _ => false

/-- SC and channel opcodes outside the A-thread's subset (R304). -/
def coreOnly : Instr → Bool
  | .lset .. | .lrun .. | .wrcrUivec .. | .wrcrUistat .. | .uiret .. => true
  | .bell .. | .bwait .. | .btest .. | .bexcuse .. => true
  | .spill .. | .fill .. | .gset .. | .dld .. | .lda .. | .stl .. | .waitv .. => true
  | .aadd .. | .amin .. | .amax .. | .aminn .. | .amaxn .. | .aand .. | .aor .. | .axor .. => true
  | .axchg .. | .acas .. | .afadd .. | .aswapv .. => true
  | .cpy .. | .cpy2 .. | .cpyn .. | .cpysum .. | .cwait .. | .cstat .. | .xlat .. | .hrel .. | .htest .. => true
  | _ => false

/-- Whether an opcode stands in the class of its position and thread (R73, R304). -/
def accepts (th : Thread) (pos : Pos) (i : Instr) : Bool :=
  (!vbOnly i || pos == .vb) &&
  (match i with | .vrule .. => th == .lanE | _ => true) &&
  (th == .core || !coreOnly i)

/-- Step 3 of R63 on one slot word. -/
def decodeSlot (th : Thread) (pos : Pos) (n : Nat) : Except (BitVec 8) Instr :=
  match slotMap pos (slotOpcode pos n) (unPre pos n) (slotBody pos n) with
  | none => .error causeIllegalOp
  | some i =>
    if !accepts th pos i then .error causeIllegalOp
    else if encodeSlot i == n && legal th i then .ok i
    else .error causeIllegalField

/-- One vector source operand: its code, its peek bit and the lane type it is read with (R64, R133). -/
structure VOp where
  code : BitVec 11
  peek : Bool
  ty : BitVec 4
  deriving DecidableEq, Repr

/-- The vector sources of a vector instruction in field order (R133, R135). -/
def vecOps : Instr → List VOp
  | .vmov _ f | .vabs _ f | .vneg _ f | .vcvt _ f | .vredadd _ f | .vredmax _ f | .vredmin _ f | .vpopc _ f
  | .vclz _ f | .vexp2 _ f | .vrcp _ f | .vrsq _ f | .vshuf _ f | .vbcast _ f => [⟨f.va, f.pa, f.ty⟩]
  | .vshl _ f | .vshr _ f | .vsar _ f =>
      if f.aux.getLsbD 9 then [⟨f.va, f.pa, f.ty⟩] else [⟨f.va, f.pa, f.ty⟩, ⟨f.vb, f.pb, f.ty⟩]
  | .vadd _ f | .vsub _ f | .vmul _ f | .vadds _ f | .vsubs _ f | .vmulh _ f | .vmin _ f | .vmax _ f | .vand _ f
  | .vor _ f | .vxor _ f | .vandn _ f | .vcmpeq _ f | .vcmpne _ f | .vcmplt _ f | .vcmple _ f | .vperm _ f
  | .vtrn _ f | .vlane _ f | .vrot _ f | .vzip _ f | .vunzip _ f | .vrule _ f =>
      [⟨f.va, f.pa, f.ty⟩, ⟨f.vb, f.pb, f.ty⟩]
  | .vqnt _ f => [⟨f.va, f.pa, tyF32⟩, ⟨f.vb, f.pb, tyN8⟩]
  | .vbscale _ f => [⟨f.va, f.pa, tyF32⟩, ⟨f.vb, f.pb, tyF32⟩]
  | .vdqnt _ f => [⟨f.va, f.pa, tyN8⟩, ⟨f.vb, f.pb, tyN8⟩]
  | .vsel _ f | .vfma _ f | .vfms _ f => [⟨f.va, f.pa, f.ty⟩, ⟨f.vb, false, f.ty⟩, ⟨f.vc, false, f.ty⟩]
  | _ => []

/-- The codes of the reads among a list of operands, counting up from a first code. -/
def opCodes : Nat → List VOp → List Nat
  | _, [] => []
  | k, o :: os => (if o.code.toNat ≤ 1535 then [k] else []) ++ opCodes (k + 1) os

/-- The port codes of the vector-queue reads of an active slot (R61). -/
def portNeeds (pos : Pos) (i : Instr) : List Nat :=
  let ch := if pos == .ca then [8] else [9]
  match i with
  | .msetkAll _ _ => [7]
  | .stvs .. | .stv .. | .aswapv .. => ch
  | .spill _ f => if f.sz == 7 then ch else []
  | _ => opCodes (if pos == .va then 1 else 4) (vecOps i)

/-- The header of a bundle (R55). -/
structure Hdr where
  mask : BitVec 6
  scope : BitVec 3
  fin : Bool
  restart : Bool
  quiet : BitVec 2
  resv : BitVec 3
  ports : BitVec 16
  deriving DecidableEq, Repr

def unHdr (n : Nat) : Hdr :=
  ⟨fld 6 n 26, fld 3 n 23, bit n 22, bit n 21, fld 2 n 19, fld 3 n 16, fld 16 n 0⟩
def pkHdr (h : Hdr) : Nat :=
  h.mask.toNat * 2 ^ 26 + h.scope.toNat * 2 ^ 23 + b2n h.fin * 2 ^ 22 + b2n h.restart * 2 ^ 21 +
    h.quiet.toNat * 2 ^ 19 + h.resv.toNat * 2 ^ 16 + h.ports.toNat

def allPos : List Pos := [.sc, .va, .vb, .mx, .ca, .cb]

/-- Place of a position's bit in the slot mask and in FAULTMASK (R55, R99). -/
def posBit : Pos → Nat
  | .sc => 5
  | .va => 4
  | .vb => 3
  | .mx => 2
  | .ca => 1
  | .cb => 0

/-- First bit of a slot in the bundle (R54). -/
def slotBase : Pos → Nat
  | .sc => 300
  | .va => 236
  | .vb => 172
  | .mx => 128
  | .ca => 72
  | .cb => 16

def slotOf (n : Nat) (pos : Pos) : Nat := n / 2 ^ slotBase pos % 2 ^ slotWidth pos

/-- The CRC of R62 over bits 383 down to 16, from the bit `15 + k` down. -/
def crcBits (n : Nat) : Nat → Nat → Nat
  | 0, c => c
  | k + 1, c =>
    let f := bit c 15 != bit n (16 + k)
    let c' := c * 2 % 65536
    crcBits n k (if f then c' ^^^ 0x1021 else c')
def bundleCheck (n : Nat) : Nat := crcBits n 368 0xFFFF

/-- A decoding fault: each faulting slot with its cause. -/
abbrev SlotFaults := List (Pos × BitVec 8)

/-- Positions with an active slot: issued here, or repeated by a hold (R56). -/
def activePos (h : Hdr) (held : Pos → Option Instr) (pos : Pos) : Bool :=
  h.mask.getLsbD (posBit pos) || (held pos).isSome

/-- The slots that a lantern thread may not use (R80). -/
def threadSlot (th : Thread) (pos : Pos) : Bool :=
  match th with
  | .core => true
  | .lanA => pos == .sc || pos == .ca || pos == .cb
  | .lanE => pos == .va || pos == .vb

/-- The ILLEGAL_BUNDLE cases of R55, R56 and R59, given whether a quiet region is open. -/
def headerBad (h : Hdr) (n : Nat) (opened : Bool) : Bool :=
  5 ≤ h.scope.toNat || h.resv != 0 ||
  allPos.any (fun pos => !h.mask.getLsbD (posBit pos) && slotOf n pos != 0) ||
  (opened && h.quiet.getLsbD 0) || (!opened && h.quiet == 2)

/-- The active instruction of a position. -/
def activeInstr (issued : List (Pos × Instr)) (held : Pos → Option Instr) (pos : Pos) : Option Instr :=
  match issued.find? (fun x => x.1 == pos) with
  | some x => some x.2
  | none => held pos

/-- R61: the port codes in use are exactly the codes of the vector-queue reads. -/
def portsOk (h : Hdr) (needs : List Nat) : Bool :=
  let used := ([0, 4, 8, 12].map (fun k => h.ports.toNat / 2 ^ k % 16)).filter (· != 0)
  used.length == needs.length && needs.all (fun k => used.contains k)

/-- A bundle that passed R63: its header and the slots it issues, in slot order. -/
structure Bundle where
  hdr : Hdr
  slots : List (Pos × Instr)
  deriving DecidableEq, Repr

/-- Step 3 over all issued slots: the faults, or the instructions. -/
def decodeSlots (th : Thread) (n : Nat) : List Pos → SlotFaults × List (Pos × Instr)
  | [] => ([], [])
  | pos :: rest =>
    let r := decodeSlots th n rest
    match decodeSlot th pos (slotOf n pos) with
    | .ok i => (r.1, (pos, i) :: r.2)
    | .error c => ((pos, c) :: r.1, r.2)

/-- The four steps of R63 on the 384 bits of a bundle. -/
def decodeBundle (th : Thread) (opened : Bool) (held : Pos → Option Instr) (n : Nat) : Except SlotFaults Bundle :=
  let h := unHdr (n / 2 ^ 352)
  let act := allPos.filter (activePos h held)
  if bundleCheck n != n % 65536 then .error (allPos.map (fun pos => (pos, causeIbufError)))
  else if headerBad h n opened then .error (act.map (fun pos => (pos, causeIllegalBundle)))
  else
    let iss := allPos.filter (fun pos => h.mask.getLsbD (posBit pos))
    let badSlot := iss.filter (fun pos => !threadSlot th pos)
    if !badSlot.isEmpty then .error (badSlot.map (fun pos => (pos, causeIllegalSlot)))
    else
      let r := decodeSlots th n iss
      if !r.1.isEmpty then .error r.1
      else
        let needs := allPos.flatMap (fun pos =>
          match activeInstr r.2 held pos with
          | some i => portNeeds pos i
          | none => [])
        if portsOk h needs then .ok ⟨h, r.2⟩
        else .error (act.map (fun pos => (pos, causeIllegalBundle)))

/-- The 384 bits of a bundle with its check (R54, R62). -/
def encodeBundle (b : Bundle) : Nat :=
  let body := pkHdr b.hdr * 2 ^ 352 + (b.slots.map (fun x => encodeSlot x.2 * 2 ^ slotBase x.1)).foldl (· + ·) 0
  body + bundleCheck body

/-- What stands at a position of a code stream: the 384 bits and the next sequential position, or none where
R77 raises ILLEGAL_INDEX. -/
def fetchAt (code : List (BitVec 16)) (dict : List (BitVec 384)) (pos : Nat) : Option (Nat × Nat × Option Nat) :=
  match code.drop pos with
  | [] => none
  | w :: rest =>
    if w == 0xFFFF then
      (if rest.length < 24 then none
       else some ((rest.take 24).foldr (fun x acc => x.toNat + 65536 * acc) 0, pos + 25, none))
    else
      match dict[w.toNat]? with
      | some b => some (b.toNat, pos + 1, some w.toNat)
      | none => none

/-! Matrix microinstructions (R76, R161, R162). -/

def encodeMicro : Instr → Nat
  | .unop => 0
  | .ufeta k ks off => 1 * 2 ^ 27 + k.toNat * 2 ^ 24 + b2n ks * 2 ^ 23 + off.toNat
  | .ufetb b => 2 * 2 ^ 27 + b2n b
  | .umac k ks n b => 3 * 2 ^ 27 + k.toNat * 2 ^ 24 + b2n ks * 2 ^ 23 + n.toNat * 2 ^ 10 + b2n b
  | .uzacc k ks n => 4 * 2 ^ 27 + k.toNat * 2 ^ 24 + b2n ks * 2 ^ 23 + n.toNat * 2 ^ 10
  | .usca m sc => 5 * 2 ^ 27 + b2n m * 2 ^ 8 + sc.toNat
  | .uscb m sc => 6 * 2 ^ 27 + b2n m * 2 ^ 8 + sc.toNat
  | .ustep k ks neg w d =>
      7 * 2 ^ 27 + k.toNat * 2 ^ 24 + b2n ks * 2 ^ 23 + b2n neg * 2 ^ 22 + b2n w * 2 ^ 20 + d.toNat
  | .uloop k ks n => 8 * 2 ^ 27 + k.toNat * 2 ^ 24 + b2n ks * 2 ^ 23 + n.toNat
  | .uendl => 9 * 2 ^ 27
  | .upopa => 10 * 2 ^ 27
  | .upopb => 11 * 2 ^ 27
  | .usync => 12 * 2 ^ 27
  | .uret => 13 * 2 ^ 27
  | _ => 2 ^ 32

def microMap (n : Nat) : Option Instr :=
  let k : BitVec 3 := fld 3 n 24
  let ks := bit n 23
  match n / 2 ^ 27 with
  | 0 => some .unop
  | 1 => some (.ufeta k ks (fld 9 n 0))
  | 2 => some (.ufetb (bit n 0))
  | 3 => some (.umac k ks (fld 10 n 10) (bit n 0))
  | 4 => some (.uzacc k ks (fld 10 n 10))
  | 5 => some (.usca (bit n 8) (fld 8 n 0))
  | 6 => some (.uscb (bit n 8) (fld 8 n 0))
  | 7 => some (.ustep k ks (bit n 22) (bit n 20) (fld 16 n 0))
  | 8 => some (.uloop k ks (fld 16 n 0))
  | 9 => some .uendl
  | 10 => some .upopa
  | 11 => some .upopb
  | 12 => some .usync
  | 13 => some .uret
  | _ => none

/-- The microinstruction a 32-bit word holds, none where R76 or R165 refuses it. -/
def decodeMicro (n : Nat) : Option Instr :=
  match microMap n with
  | none => none
  | some i => if encodeMicro i == n && legal .core i then some i else none

/-- The loops of a routine: none left open, never more than two deep (R165). -/
def loopsOk : Nat → List Instr → Bool
  | d, [] => d == 0
  | d, .uloop .. :: r => d < 2 && loopsOk (d + 1) r
  | d, .uendl :: r => 0 < d && loopsOk (d - 1) r
  | d, _ :: r => loopsOk d r

/-- The checks that dispatch makes of one routine (R165). -/
def routineOk (ws : List (BitVec 32)) : Bool :=
  let is := ws.map (fun x => decodeMicro x.toNat)
  is.all (·.isSome) && loopsOk 0 (is.filterMap id) && (is.filterMap id).getLast? == some .uret &&
    ((is.filterMap id).dropLast.all (· != .uret))

/-- The instruction the decoder reads from a table word: only the microinstructions have one; the word is one
32-bit word of the microprogram store. -/
def decodeTableWord (nbits w : Nat) : Option Instr := if nbits == 32 then decodeMicro w else none

end Sys2Proof
end

