-- ==== Sys2Proof/Machine/State.lean ====
section
/-! DEFINITION. The state of the panel as plain data, and the state right after the reset signal. Every list that
is keyed by a number is sparse: a key it does not hold reads as the default its accessor names. -/

namespace Sys2Proof.Machine

/-- Why a run stops with a fault. -/
inductive Fault where
  /-- A turn names an agent, unit or field value that the panel does not have; raised by step alone. Safe: no
  step of the panel is such a turn. -/
  | noSuchAgent
  deriving DecidableEq, Repr

/-- Why an instruction has no meaning here. -/
inductive Refusal where
  /-- The arm of an instruction that has no meaning yet; raised by exec alone. Safe: the run stops. -/
  | notModelled (mnemonic : String)
  deriving DecidableEq, Repr

/-- A byte-addressed memory: (address, byte), addresses rising, no byte 0 listed. -/
abbrev Memory := List Host.Cell

/-! ## Sequencers -/

/-- The register queues of a sequencer (R97, R98): scalar, shadow scalar, vector. -/
inductive QKind where
  | x | sh | v
  deriving DecidableEq, Repr

structure QName where
  kind : QKind
  n : Nat
  deriving DecidableEq, Repr

/-- A queue entry: reserved from its bundle's issue, visible from `due` once it has its data (R100, R101);
poisoned with the address that answered so (R385). -/
structure Entry where
  id : Nat
  due : Nat
  data : Option V512
  poison : Option Nat
  deriving DecidableEq, Repr

/-- A handle (R331). -/
structure Handle where
  valid : Bool
  cause : BitVec 8
  va : Nat
  pa : Nat
  large : Bool
  read : Bool
  write : Bool
  deriving DecidableEq, Repr

/-- A stream register with its pattern (R190) and its position. -/
structure Stream where
  w : Nat
  n : Nat
  period : Nat
  first : Nat
  start : Nat
  pos : Nat
  poison : Option Nat
  deriving DecidableEq, Repr

/-- A plain register and the value it takes (R100). -/
inductive RegWr where
  | pred (n : Nat) (v : W64)
  | loop (n : Nat) (v : BitVec 32)
  | handle (n : Nat) (h : Handle)
  | stream (n : Nat) (v : Option Stream)
  | kreg (n : Nat) (v : W64)
  | desc (n : Nat) (v : V512) (poison : Option Nat)
  | uivec (v : BitVec 24)
  | uistat (v : W64)
  deriving DecidableEq, Repr

/-- A plain-register write on its way: due at a cycle, ready once its value is there. `ser` names its bundle,
`fill` the TLB fill that an XLAT of a missing page waits for. -/
structure PendWr where
  id : Nat
  due : Nat
  wr : RegWr
  ready : Bool
  ser : Nat
  slot : Pos
  fill : Option Nat
  deriving DecidableEq, Repr

/-- A store of a bundle to a local memory, performed at `due` (R180); `ser` names its bundle. -/
structure LocalSt where
  due : Nat
  addr : Nat
  bytes : List Byte
  ser : Nat
  deriving DecidableEq, Repr

/-- The places of a pending set nest or the slice of a launch (R122). -/
inductive PendNest where
  | empty
  | slice (regs ext start : List Nat) (count : Nat)
  | set (places : List (Nat × Nat × Nat))
  deriving DecidableEq, Repr

/-- An active nest (R122): body start and end, loop registers, extents and indices by place, count, depth. -/
structure ActNest where
  start : Nat
  stop : Nat
  regs : List Nat
  ext : List Nat
  idx : List Nat
  cnt : Nat
  d0 : Nat
  deriving DecidableEq, Repr

/-- What a core or a lantern thread issues with: code, position, queues, predicates, return stack, holds. -/
structure Seq where
  pos : Nat
  nextAt : Nat
  vcc : Nat
  nid : Nat
  code : List (BitVec 16)
  dict : List (BitVec 384)
  queues : List (QName × List Entry)
  preds : List (Nat × W64)
  pend : List PendWr
  stores : List LocalSt
  rstack : List Nat
  holds : List (Pos × Instr)
  deriving DecidableEq, Repr

/-! ## Off-core accesses -/

/-- Who sends a request to a home; a WAITEV of a command queue stands at its counter's home as a watch. -/
inductive Source where
  | core (c : Nat)
  | lantern (p : Nat)
  | peer (k : Nat)
  | host
  | command (q slot : Nat)
  deriving DecidableEq, Repr

/-- What an off-core access does at its home (R188, R220, R227, R229, R231). -/
inductive AccKind where
  | load
  | store
  | atomic (op : BitVec 7) (wide : Bool)
  | swapv
  | waitv (cond : Nat) (wide : Bool)
  deriving DecidableEq, Repr

/-- Where the reply of an access goes; the reply of an overflow FILL takes some bytes, by their place, from the forwarding table
as it stood at issue (R186). -/
inductive Landing where
  | none
  | entry (q : QName) (id : Nat) (sz : BitVec 3)
  | fill (q : QName) (id : Nat) (sz : BitVec 3) (fwd : List (Nat × Byte))
  | stream (n id : Nat)
  | desc (n id : Nat)
  | wait
  deriving DecidableEq, Repr

/-- One off-core access from issue to landing. `ser` is the position of its bundle in its core's program order, `at_` the bundle's
position, `bound` its padded bound, `late` the VCC by which it must have landed, `stamp` that of R356, `retry` that a WAITV waits
to be sent again, `came` the cycle in which a sent access has arrived at its home, `since` the one in which it was issued, `va`
the virtual address of an access through a handle, `held` that it was sent after its stamp had passed. -/
structure Access where
  id : Nat
  src : Source
  slot : Pos
  kind : AccKind
  pa : Nat
  size : Nat
  data : V512
  cmp : W64
  land : Landing
  at_ : Nat
  ser : Nat
  release : Bool
  acquire : Bool
  scope : Nat
  path : Nat
  bound : Nat
  lat : Nat
  late : Nat
  stamp : Nat
  retry : Bool
  came : Option Nat := none
  since : Nat := 0
  va : Option Nat := none
  held : Bool := false
  deriving DecidableEq, Repr

/-- An order of an issued MARK, FENCE, LDA or engine point (R216, R219, R221): `ser` its place. -/
inductive OrdKind where
  | mark
  | fence (kind : BitVec 4) (scope : Nat)
  deriving DecidableEq, Repr

structure Ord where
  ser : Nat
  kind : OrdKind
  deriving DecidableEq, Repr

/-- A reply on its way back: the access and what its home answers. -/
structure Reply where
  acc : Access
  data : V512
  poison : Bool
  abandoned : Bool
  retry : Bool
  resumeAt : Nat
  deriving DecidableEq, Repr

/-! ## Copy engines (R236 to R250) -/

structure CopyRec where
  skind : Nat
  dkind : Nat
  dims : Nat
  e : Nat
  chk : Bool
  sbase : Nat
  dbase : Nat
  ext : List Nat
  sstr : List Int
  dstr : List Int
  expect : BitVec 32
  spa : Nat
  dpa : Nat
  deriving DecidableEq, Repr

/-- One queued or running copy command. `done` counts the elements written of record `ridx`, `bytes` all bytes
written so far; `issued` is the wall cycle of acceptance, `since` that from which the present chunk moves. -/
structure CopyRun where
  tag : BitVec 16
  slot : Pos
  recs : List CopyRec
  pages : List Nat
  acq : Bool
  rel : Bool
  scope : Nat
  ser : Nat
  sum : Bool
  value : BitVec 32
  deadline : Nat
  issued : Nat
  since : Nat
  started : Bool
  ridx : Nat
  done : Nat
  bytes : Nat
  status : Nat
  finished : Bool
  recalled : Bool
  deriving DecidableEq, Repr

/-- Bytes of a command with rel = 0 that have left the engine and are not yet performed at their home, with the slot that issued the
command (R223, R244, R422). -/
structure CopyOut where
  tag : BitVec 16
  slot : Pos
  deadline : Nat
  group : List (Nat × List Byte)
  deriving DecidableEq, Repr

structure CopyEngine where
  queue : List CopyRun
  left : List CopyOut
  nextSeq : Nat
  issuedAny : Bool
  lastDeadline : Nat
  log : List (BitVec 16 × W64)
  errors : List (BitVec 16 × CopyRun)
  deriving DecidableEq, Repr

/-! ## Matrix unit (R153) -/

structure RingConf where
  sp : Nat
  fmt : Nat
  klen : Nat
  trows : Nat
  ntile : Nat
  base : Nat
  deriving DecidableEq, Repr

structure Ring where
  conf : Option RingConf
  head : Nat
  tail : Nat
  deriving DecidableEq, Repr

inductive MCmd where
  | mcall (routine ra rb : Nat) (ks : List W64)
  | mring (ring : Nat) (conf : W64)
  | madv (ring count : Nat)
  | mdrain (fmt : Nat) (rm : BitVec 2) (word : W64)
  deriving DecidableEq, Repr

/-- A B latch bank: the tile it loads, the cycle it is ready or, once a UMAC has used it, free for another load, and its
bytes once the load has ended. -/
structure Bank where
  tile : Nat
  ready : Nat
  bytes : Option (List Byte)
  deriving DecidableEq, Repr

/-- The microsequencer (R153, R160). Loops stand innermost first: (body start, remaining count). -/
structure MSeq where
  routine : Nat
  ra : Nat
  rb : Nat
  ks : List W64
  pos : Nat
  loops : List (Nat × Nat)
  acur : Int
  ccur : Int
  ta : Nat
  tb : Nat
  touchA : Bool
  touchB : Bool
  modeA : Bool
  scaleA : BitVec 8
  modeB : Bool
  scaleB : BitVec 8
  bank0 : Option Bank
  bank1 : Option Bank
  wrEnd : Nat
  deriving DecidableEq, Repr

/-- The rows of a UMAC (`mac`) or a UZACC under way: its first cycle, its rows and how many of them are done, its microprogram
position, its bank, and its first A row and CMEM row (R162). -/
structure MRows where
  mac : Bool
  from_ : Nat
  count : Nat
  done : Nat
  pos : Nat
  bank : Bool
  arow : Nat
  crow : Nat
  deriving DecidableEq, Repr

/-- A row that a UMAC has formed and not yet written to CMEM (R162): a word with no value is written back as uncorrectable
(R169). -/
structure MWrite where
  due : Nat
  crow : Nat
  words : List (Option Nat)
  deriving DecidableEq, Repr

/-- The matrix unit's time runs with its core's VCC. `freeAt` is the first cycle at which the unit goes on, `fetAt`
the first at which a UFETB may issue, `loadFrom` the first cycle of the last B load and `loadEnd` the first after it; `drained`
counts the rows that the drain under way has written. -/
structure Matrix where
  queue : List MCmd
  issued : Nat
  retired : Nat
  freeAt : Nat
  fetAt : Nat
  loadFrom : Nat
  loadEnd : Nat
  drained : Nat
  rows : Option MRows
  writes : List MWrite
  running : Bool
  mseq : Option MSeq
  rings : List (Nat × Ring)
  user : List (Nat × List (BitVec 32))
  fault : Option (BitVec 8 × W64)
  deriving DecidableEq, Repr

/-! ## Cores -/

/-- The fault record of a core (R377); `found` counts the uncorrectable units of the core's memories that the access
met, which UECNT takes up (R346), and `page` the page of a handle that missed in the TLB, with its size (R336); no register
shows the two. -/
structure FRec where
  kind : Nat
  slot : Pos
  r0 : W64
  r1 : W64
  r2 : W64
  found : Nat := 0
  page : Option (Nat × Bool) := none
  deriving DecidableEq, Repr

/-- One faulting slot of a bundle. -/
structure SlotFault where
  slot : Pos
  cause : BitVec 8
  frec : FRec
  deriving DecidableEq, Repr

/-- What a committed wait waits for (R27, R170, R231, R247, R276, R365, R130); a BELL that waits keeps the place of its
bundle and the deadline of the stores before it. -/
inductive Wait where
  | mwait (serial : Nat)
  | waitv (acc : Access)
  | cwait (tag : BitVec 16) (src : QName) (took : Option Entry) (dst : QName) (eid : Nat) (pos : Nat) (slot : Pos)
  | twait (tag : BitVec 16) (src : QName) (took : Option Entry) (pos : Nat)
  | bwait (b : Nat) (bell : Option (Nat × Nat))
  | uiret
  deriving DecidableEq, Repr

/-- What a core is doing. -/
inductive CoreMode where
  /-- counted as free by the dispatcher -/
  | free
  /-- holds a context, waits for the dispatch release (R349) -/
  | loaded
  /-- issues bundles, unless it has committed waits (Core.waits) -/
  | run
  /-- a rollback of these faults waits for the engines (R382) -/
  | roll (fs : List SlotFault)
  /-- a trap waits to be reported, then for the launch to stop (R378) -/
  | trap (reported : Bool)
  /-- the instruction buffer is reloaded (R386) -/
  | reload
  /-- stopped by the end of its launch, or by its END bundle (R23, R378) -/
  | ended
  /-- stopping for a pre-emption, then stopped (R388) -/
  | stop (done : Bool)
  deriving DecidableEq, Repr

/-- A bell of a core (R363); `rung` is the cycle of the BELL that waits for the release. -/
structure BellSt where
  gen : Nat
  arrived : Bool
  count : Nat
  sent : Nat
  excused : Bool
  rung : Nat := 0
  deriving DecidableEq, Repr

/-- An arrival that BELL holds until the stores before it are performed (R366): the bell, the place of the BELL's bundle,
the VCC at which it leaves, and the accesses that it waits for. -/
structure BellHeld where
  bell : Nat
  ser : Nat
  vcc : Nat
  waits : List Nat
  deriving DecidableEq, Repr

/-- A first-level TLB entry, most recently used first. -/
structure TlbEntry where
  vpn : Nat
  large : Bool
  pa : Nat
  read : Bool
  write : Bool
  pinned : Bool
  deriving DecidableEq, Repr

/-- A TLB fill under way (R334): started at VCC `start` in cycle `since`; `reg` is the handle that waits for it. -/
structure Fill where
  id : Nat
  va : Nat
  large : Bool
  start : Nat
  since : Nat
  reg : Nat
  pendId : Nat
  deriving DecidableEq, Repr

/-- A report of a T-op that the core keeps (R276): tag, status, the cause of its trap, words of its fault record. -/
structure TopRep where
  tag : BitVec 16
  status : Nat
  cause : BitVec 8
  r0 : W64
  r1 : W64
  r2 : W64
  deriving DecidableEq, Repr

/-- An entry of the forwarding table (R187); `due` is none while its store is gated. -/
structure Fwd where
  off : Nat
  bytes : List Byte
  due : Option Nat
  acc : Option Nat
  deriving DecidableEq, Repr

/-- What a restart mark keeps (R379). -/
structure Snapshot where
  pos : Nat
  queues : List (QName × List Entry)
  preds : List (Nat × W64)
  loops : List (Nat × BitVec 32)
  pendNest : PendNest
  actNest : Option ActNest
  rstack : List Nat
  handles : List (Nat × Handle)
  streams : List (Nat × Stream)
  kregs : List (Nat × W64)
  descs : List (Nat × (V512 × Option Nat))
  holds : List (Pos × Instr)
  quiet : Option Nat
  uivec : BitVec 24
  uiEnable : Bool
  bells : List (Nat × BellSt)
  pendRegs : List PendWr
  deriving DecidableEq, Repr

/-- A reason for a freeze (R353, R371, R235). -/
inductive FreezeWhy where
  | access (c id : Nat)
  | fill (c id : Nat)
  | copy (c e : Nat) (tag : BitVec 16)
  | top (t : Nat)
  | full (a : Agent) (need : List Nat)
  | reload (c : Nat)
  | pairAccess (p id : Nat)
  | tile (t n : Nat)
  | power
  deriving DecidableEq, Repr

/-- `waits` holds the waits that the core has committed and that have not ended; a core that has any issues no bundle. `stored`
and `copied` name the 8-byte units of local memories that the core's stores, and its engine 1, have written in the present
cycle (R249). `lost` names the results that the watchdog has given up (R355), `done` the accesses
of a deterministic core that are performed and whose deadlines have not come. -/
structure Core where
  mode : CoreMode
  waits : List Wait
  launch : Option Nat
  seq : Seq
  logIdx : Nat
  gridX : Nat
  gridY : Nat
  detMode : Bool
  loops : List (Nat × BitVec 32)
  pendNest : PendNest
  actNest : Option ActNest
  handles : List (Nat × Handle)
  streams : List (Nat × Stream)
  kregs : List (Nat × W64)
  descs : List (Nat × (V512 × Option Nat))
  faultMask : BitVec 6
  cause : BitVec 48
  epc : BitVec 24
  uivec : BitVec 24
  uistat : W64
  spillBase : Nat
  spillSize : Nat
  spillOvf : Nat
  ovfPages : List (Nat × Nat)
  pwrLim : Nat
  window : List Nat
  nowW : Nat
  pfAt : List Nat
  pfDone : Bool
  frzCnt : Nat
  lateFrz : Nat
  qUnder : Nat
  ceCnt : Nat
  ueCnt : Nat
  ftoCnt : Nat
  quiet : Option Nat
  handlerDepth : Nat
  handlerPos : Nat
  savedHolds : List (Pos × Instr)
  savedWaits : List Wait
  savedMark : Bool
  frec : FRec
  finWait : Bool
  snap : Option Snapshot
  ldq : List Access
  stq : List Access
  gated : List Access
  out : List Access
  ords : List Ord
  nextSer : Nat
  fwd : List Fwd
  ackFaults : List SlotFault
  badDict : List Nat
  ibufAt : Option Nat
  trapAt : Nat
  eng0 : CopyEngine
  eng1 : CopyEngine
  mx : Matrix
  topNext : Nat
  tops : List (BitVec 16)
  reports : List TopRep
  tlb : List TlbEntry
  fills : List Fill
  noLeaf : List (Nat × Bool)
  bells : List (Nat × BellSt)
  bellHeld : List BellHeld
  storeBy : Nat
  injCtl : W64
  injStat : W64
  injFrom : Nat
  tagImage : Option W64
  stopReq : Bool
  stopHeld : Bool
  stopAt : Nat
  markNext : Bool
  stored : List Nat
  copied : List Nat
  lost : List FreezeWhy := []
  done : List Access := []
  deriving DecidableEq, Repr

/-! ## Lantern pairs (R98, R302, R307) -/

/-- A fault of a user lantern program (R313): thread (true for E), bundle position, mask, causes. -/
structure LFault where
  thread : Bool
  pos : Nat
  mask : BitVec 6
  causes : BitVec 48
  deriving DecidableEq, Repr

structure Pair where
  a : Seq
  e : Seq
  launch : Option Nat
  loaded : Bool
  detMode : Bool
  haltA : Bool
  haltE : Bool
  segment : Option Nat
  rv : List (Nat × BitVec 32)
  dep : List (Nat × BitVec 8)
  racc : List (Nat × BitVec 32)
  rmax : BitVec 32
  qUnder : Nat
  lfrz : Nat
  ceCnt : Nat
  ueCnt : Nat
  window : List Nat
  nowW : Nat
  pfDone : Bool
  ldq : List Access
  stq : List Access
  out : List Access
  ords : List Ord
  nextSer : Nat
  faulted : Option LFault
  done : List Access := []
  deriving DecidableEq, Repr

/-! ## Clusters and domes -/

/-- A watch at a home (R231). -/
structure Watch where
  acc : Access
  deriving DecidableEq, Repr

/-- A cluster: the second-level TLB (R334), most recently used first, and the watches its CLM holds (R231). Numbers from
1024 on hold the watches of the peer slots, 2048 those at counters in host memory. -/
structure Cluster where
  tlb : List TlbEntry
  watches : List Watch
  deriving DecidableEq, Repr

/-- The record of a block (R199); a block the list does not hold is the zero block of R194. -/
structure BlockRec where
  s : Nat
  donated : Bool
  ballooned : Bool
  home : Nat
  ovf : List Nat
  deriving DecidableEq, Repr

/-- Who makes a write that a dome may hold (R204, R205). -/
inductive Writer where
  | access (id : Nat)
  | copy (c e : Nat)
  | tile (t n : Nat)
  | firm (a : Nat)
  | command (q slot : Nat)
  deriving DecidableEq, Repr

/-- A write that waits for units (R203, R204): who makes it, where, since when, and the units it needs; when it arrived at the dome,
and its place among the agents that arrived with it (R200). Its writer performs it once the pool covers it. -/
structure HeldWrite where
  who : Writer
  addr : Nat
  size : Nat
  since : Nat
  need : Nat
  came : Nat := 0
  order : Nat := 0
  deriving DecidableEq, Repr

/-- A lease (R339): page base, holding cluster, whether pinned; oldest grant first in the list. -/
structure Lease where
  page : Nat
  large : Bool
  cluster : Nat
  pinned : Bool
  granted : Nat
  deriving DecidableEq, Repr

/-- A recall under way (R340): the page, the clusters that have not acknowledged it, and whether a peer has sent it (R403). -/
structure Recall where
  page : Nat
  large : Bool
  holders : List Nat
  peer : Bool := false
  deriving DecidableEq, Repr

/-- The access counter of a 64 KiB page (R342). -/
structure PageCount where
  count : Nat
  queued : Bool
  pending : Bool
  deriving DecidableEq, Repr

/-- `want` holds the writes that wait for a balloon take (R203), oldest first, and `errors` the controller's error log, the
logical addresses of the blocks (R198). `haltAt` is the cycle in which the last loaded pair of a user lantern program halted
(R274). -/
structure Dome where
  lcap : Nat
  formatted : Bool
  blocks : List (Nat × BlockRec)
  freed : List Nat
  nextUnit : Nat
  poolFree : Nat
  poolLow : Nat
  lowArmed : Bool
  balloon : List Nat
  want : List HeldWrite
  held : List HeldWrite
  pendLow : Bool
  pendExh : Option Nat
  sectors : Nat
  expands : Nat
  shrinks : Nat
  rawWr : Nat
  zeroWr : Nat
  bTakes : Nat
  exhausts : Nat
  abandons : Nat
  balloonHit : Nat
  rfms : Nat
  alerts : Nat
  noteDly : Nat
  acts : List (Nat × Nat)
  blocked : List (Nat × Nat)
  leases : List Lease
  counts : List (Nat × PageCount)
  watches : List Watch
  tileQ : List Nat
  input : List Nat
  userPairs : Option Nat
  errors : List Nat
  haltAt : Nat
  deriving DecidableEq, Repr

/-- A monitor (R374): `wrote` is the cycle of the last write to its MONCTL, `took` that of its last sample. -/
structure Monitor where
  ctl : W64
  cnt : Nat
  min : W64
  max : W64
  hist : List Nat
  last : W64
  alert : W64
  wrote : Option Nat
  took : Option Nat
  deriving DecidableEq, Repr

/-! ## T-ops (R254 to R280) -/

/-- A tensor descriptor (R254). -/
structure Desc where
  base : Nat
  fmt : Nat
  rank : Nat
  scaled : Bool
  ext : List Nat
  str : List Nat
  scales : Nat
  grammar : Nat
  deriving DecidableEq, Repr

/-- Who issued a T-op: a core (R257) or a TOP command (R319). -/
inductive TopFrom where
  | core (c : Nat)
  | command (q slot : Nat)
  deriving DecidableEq, Repr

/-- How far a T-op has come. -/
inductive TopStage where
  | issued | waiting | queued | done | reported
  deriving DecidableEq, Repr

/-- One band of a grammar-block table (R285): first row, rows, the entries of its blocks (address, bytes). -/
structure Band where
  row0 : Nat
  nrows : Nat
  blocks : List (Nat × Nat)
  deriving DecidableEq, Repr

/-- A failed tile (R280, R297): its number, T-op status, cause, and words of the record. -/
structure TileFail where
  tile : Nat
  status : Nat
  cause : BitVec 8
  pos : Nat
  scale : Bool
  dome : Nat
  word1 : Nat
  deriving DecidableEq, Repr

/-- A claimed tile: its claimant, since when, whether its operands have been read (until then its homes make it wait), the bytes
it writes by physical address with the marks of scale bytes, its quantisation underflows, and its failure. -/
structure TileRun where
  who : Claimant
  since : Nat
  got : Bool
  out : List (Nat × List Byte)
  under : Nat
  fail : Option TileFail
  deriving DecidableEq, Repr

/-- One T-op from issue to report. `pages` holds the physical 64 KiB granule of each virtual one it has translated,
`taken` the tickets claimed so far, `nfail` the failed tiles its record counts. `since` is the cycle of acceptance, `far` and
`ttile` the terms of R274, `acc` the bytes of D as they stood at issue, by virtual address (R261); `sends` says that a collective
sends data to its switch (R407). -/
structure Top where
  op : Nat
  aux : BitVec 8
  from_ : TopFrom
  tag : BitVec 16
  spire : Nat
  vcc : Nat
  detMode : Bool
  ser : Nat
  dd : Desc
  ds1 : Desc
  ds2 : Desc
  stage : TopStage
  pages : List (Nat × Nat)
  home : Nat
  rise : Bool
  nt : Nat
  deadline : Nat
  bands : List Band
  taken : List Nat
  claimed : List (Nat × TileRun)
  ended : Nat
  fails : List TileFail
  nfail : Nat
  under : Nat
  port : Nat
  stepNo : Nat
  retries : Nat
  contrib : List Byte
  result : Option (List Byte)
  agree : Bool
  arrived : Nat
  launch : Option Nat
  since : Nat
  far : Nat
  ttile : Nat
  acc : Option Memory
  sends : Bool := true
  deriving DecidableEq, Repr

/-! ## Launches, queues, records -/

/-- A bell of a peal: its generation, the cores not excused from it, those that have arrived at the generation, those
among them that leave after it, and when the last arrival left its core (R362 to R364). -/
structure Peal where
  gen : Nat
  parts : List Nat
  arrived : List Nat
  leaving : List Nat
  lastAt : Nat
  deriving DecidableEq, Repr

/-- The parts of a kernel image that a launch uses (R91, R92, R95). -/
structure Image where
  id : W64
  entry : Nat
  code : List (BitVec 16)
  dict : List (BitVec 384)
  routines : List (Nat × List (BitVec 32))
  spill : Nat
  nestD : Nat
  perm : List Nat
  indirect : BitVec 8
  ext : List Nat
  extAddr : List Nat
  pages : List (Nat × Nat × Bool)
  lantA : Option (List (BitVec 16) × List (BitVec 384))
  lantE : Option (List (BitVec 16) × List (BitVec 384))
  deriving DecidableEq, Repr

/-- Why a launch ends early: its completion status and detail (R326), set by the first report. -/
structure LaunchEnd where
  status : Nat
  detail : W64
  deriving DecidableEq, Repr

/-- A launch (R22 to R26). `pfAsk` names the VCC values before which members freed since have asked for a power-freeze cycle (R371),
`pairReports` the reports of its trapped lantern pairs that the schedulers of their spires have recorded (R313). -/
structure Launch where
  hdr : CmdHdr
  cmd : LaunchCmd
  image : Image
  cores : List Nat
  active : List Nat
  lantDomes : List Nat
  pairs : List Nat
  pairsLeft : List Nat
  detMode : Bool
  lead : Nat
  replicas : List Nat
  released : Bool
  vcc0 : Nat
  bells : List (Nat × Peal)
  ending : Option LaunchEnd
  preempt : Option (Nat × Nat)
  saved : List Nat
  pfAsk : List Nat := []
  pairReports : List (Nat × LFault) := []
  deriving DecidableEq, Repr

/-- What the firmware keeps of a pre-empted launch beside its context area (R389, R391): the launch, the VCC of its group
at the stop, its cores by physical id as they stopped, and the check state of their scratchpads. -/
structure SavedCtx where
  num : Nat
  launch : Launch
  vcc : Nat
  cores : List (Nat × Core)
  bad : List Nat
  deriving DecidableEq, Repr

/-- A command that has started and not completed, or completed and awaiting its record (R317, R326). `begun` says that its
checks are over, `prog` how far it has come (bytes, pages, or a set of spires), `sentRec` that the recall of its present page
has been sent, `pages` the granules it has translated, `lead` the spire that started it (R328), `start` the cycle of its start
(R319). -/
structure RunCmd where
  hdr : CmdHdr
  instr : Instr
  done : Option (Nat × W64)
  begun : Bool
  prog : Nat
  sentRec : Bool
  pages : List (Nat × Nat)
  lead : Nat
  start : Nat := 0
  deriving DecidableEq, Repr

/-- What the firmware keeps of a command queue (R314, R326 to R329). -/
structure CmdQueue where
  served : Bool
  ring : Nat
  nslots : Nat
  wrptr : Nat
  rdptr : Nat
  prio : Nat
  port : Nat
  cring : Nat
  ncslots : Nat
  thread : BitVec 32
  leader : Option Nat
  headSince : Nat
  promoted : Nat
  running : List RunCmd
  records : Nat
  window : Option Nat
  posted : Bool
  deriving DecidableEq, Repr

/-- A notification that waits for room or for sending (R344): code, source, index, two words. -/
structure Note where
  code : Nat
  source : Nat
  index : Nat
  w0 : W64
  w1 : W64
  deriving DecidableEq, Repr

/-- A freeze of a group: it stops the group at VCC `at_`, has stood since cycle `since`, and ends once its reason is over
and the release has spread (`overAt` is the cycle in which the reason ended). -/
structure Freeze where
  group : Group
  why : FreezeWhy
  at_ : Nat
  since : Nat
  overAt : Option Nat
  deriving DecidableEq, Repr

/-- One turn of the machine: who acts next. -/
inductive Turn where
  /-- a core or lantern thread issues its bundle -/
  | bundle (a : Agent)
  /-- a core's microsequencer issues its microinstruction -/
  | micro (c : Nat)
  /-- a step of the table that is no slot of a bundle -/
  | event (i : Instr)
  /-- the clock advances -/
  | cycle
  deriving DecidableEq, Repr, Inhabited

/-- How far the issue of a bundle has come (R79); `whole` is a slot instruction taken by itself. -/
inductive Phase where
  | whole | read | reserve | commit
  deriving DecidableEq, Repr

/-- The bundle at issue: who issues it, its position and the next one, its scope and marks, what each slot has
read and reserved, and the faults found. -/
structure Cur where
  agent : Agent
  phase : Phase
  pos : Nat
  next : Nat
  scope : Nat
  fin : Bool
  vals : List (Pos × List V512)
  ids : List (Pos × List Nat)
  faults : List SlotFault
  moved : Bool
  trapAfter : Option (BitVec 8)
  waits : Bool
  took : List Nat
  full : Bool
  deriving DecidableEq, Repr

/-- The firmware's own state (R412 to R417, R328, R269); `noLead` are the spires that are throttled or drained, `unread` the queues
whose header is still to be read after the start (R413), `attJobs` the addresses whose reports are still to be written (R417). -/
structure Firmware where
  stage : Nat
  degraded : Bool
  error : BitVec 8
  patchVer : BitVec 32
  patchHash : List Byte
  qtab : Nat
  nqhdr : Nat
  bootctl : W64
  patchAddr : Nat
  patchStat : W64
  patchHeld : Option (BitVec 32 × List Byte)
  attNonce : List Byte
  attAddr : W64
  attStat : W64
  bands : List (Nat × Nat)
  toffs : List (Nat × W64)
  liveCore : List (Nat × W64)
  liveLant : List (Nat × W64)
  ports : List (Nat × PortKind)
  portUp : List (Nat × Bool)
  portStep : List (Nat × Nat)
  pools : List (Nat × Nat)
  window : Nat
  power : Nat
  rr : List (Nat × Nat)
  fwTag : Nat
  nextTable : Nat
  noLead : List Nat
  unread : List Nat
  attJobs : List W64
  deriving DecidableEq, Repr

/-- The whole panel; `peerLeases` are the leases that its clusters hold at homes of peer panels (R339). -/
structure State where
  now : Nat
  timeBase : Nat
  turns : Nat
  agenda : List Turn
  free : Nat
  nextId : Nat
  cur : Cur
  fw : Firmware
  cores : List (Nat × Core)
  pairs : List (Nat × Pair)
  clusters : List (Nat × Cluster)
  domes : List (Nat × Dome)
  spireMon : List (Nat × Monitor)
  domeMon : List (Nat × Monitor)
  mem : Memory
  poison : List Nat
  bad : List Nat
  ptes : List (Nat × W64)
  reqs : List Access
  reps : List Reply
  tops : List (Nat × Top)
  launches : List (Nat × Launch)
  queues : List (Nat × CmdQueue)
  freezes : List Freeze
  notes : List Note
  irqs : List (Nat × W64)
  hostReads : List (Nat × Option (List Byte))
  peerReps : List (Nat × Option (List Byte))
  recalls : List Recall
  contexts : List (Nat × SavedCtx)
  peerLeases : List Lease
  deriving DecidableEq, Repr

/-! ## Defaults of the sparse lists, and reset -/

def Seq.empty : Seq :=
  { pos := 0, nextAt := 0, vcc := 0, nid := 0, code := [], dict := [], queues := [], preds := [], pend := [],
    stores := [], rstack := [], holds := [] }

def CopyEngine.empty : CopyEngine :=
  { queue := [], left := [], nextSeq := 0, issuedAny := false, lastDeadline := 0, log := [], errors := [] }

def Matrix.empty : Matrix :=
  { queue := [], issued := 0, retired := 0, freeAt := 0, fetAt := 0, loadFrom := 0, loadEnd := 0, drained := 0,
    rows := none, writes := [], running := false,
    mseq := none, rings := [], user := [], fault := none }

def FRec.none : FRec := { kind := 0, slot := .sc, r0 := 0, r1 := 0, r2 := 0 }

/-- An invalid handle of cause HANDLE_FAULT (R331). -/
def Handle.none : Handle :=
  { valid := false, cause := 0x0D, va := 0, pa := 0, large := false, read := false, write := false }

def BellSt.start : BellSt := { gen := 0, arrived := false, count := 0, sent := 0, excused := false }

/-- A core that nothing has been dispatched to since reset (R97, R99, R175, R345, R377). -/
def Core.fresh : Core :=
  { mode := .free, waits := [], launch := none, seq := Seq.empty, logIdx := 0, gridX := 0, gridY := 0, detMode := false,
    loops := [], pendNest := .empty, actNest := none, handles := [], streams := [], kregs := [], descs := [],
    faultMask := 0, cause := 0, epc := 0, uivec := 0xFFFFFF, uistat := 0, spillBase := 0, spillSize := 0,
    spillOvf := 0, ovfPages := [], pwrLim := 6851, window := [], nowW := 0, pfAt := [], pfDone := false, frzCnt := 0, lateFrz := 0, qUnder := 0,
    ceCnt := 0, ueCnt := 0, ftoCnt := 0, quiet := none, handlerDepth := 0, handlerPos := 0, savedHolds := [],
    savedWaits := [], savedMark := false, frec := FRec.none, finWait := false, snap := none, ldq := [], stq := [], gated := [], out := [], ords := [],
    nextSer := 0, fwd := [], ackFaults := [], badDict := [], ibufAt := none,
    trapAt := 0, eng0 := CopyEngine.empty, eng1 := CopyEngine.empty, mx := Matrix.empty, topNext := 0,
    tops := [], reports := [], tlb := [], fills := [], noLeaf := [], bells := [], bellHeld := [], storeBy := 0, injCtl := 0,
    injStat := 0, injFrom := 0, tagImage := none, stopReq := false,
    stopHeld := false, stopAt := 0, markNext := false, stored := [], copied := [] }

/-- A lantern pair with no user program (R302). -/
def Pair.fresh : Pair :=
  { a := Seq.empty, e := Seq.empty, launch := none, loaded := false, detMode := false,
    haltA := true, haltE := true, segment := none, rv := [], dep := [], racc := [], rmax := 0,
    qUnder := 0, lfrz := 0, ceCnt := 0, ueCnt := 0, window := [], nowW := 0, pfDone := false, ldq := [], stq := [], out := [], ords := [],
    nextSer := 0, faulted := none }

def Cluster.fresh : Cluster := { tlb := [], watches := [] }

/-- A dome that is not formatted (R193, R211). -/
def Dome.fresh : Dome :=
  { lcap := 1907, formatted := false, blocks := [], freed := [], nextUnit := 0, poolFree := 0, poolLow := 262144,
    lowArmed := true, balloon := [], want := [], held := [], pendLow := false, pendExh := none, sectors := 0, expands := 0,
    shrinks := 0, rawWr := 0, zeroWr := 0, bTakes := 0, exhausts := 0, abandons := 0, balloonHit := 0, rfms := 0,
    alerts := 0, noteDly := 0, acts := [], blocked := [], leases := [], counts := [], watches := [], tileQ := [],
    input := [], userPairs := none, errors := [], haltAt := 0 }

/-- A monitor at reset (R374). -/
def Monitor.fresh : Monitor :=
  { ctl := 0, cnt := 0, min := BitVec.allOnes 64, max := 0, hist := [], last := 0, alert := 0, wrote := none, took := none }

def CmdQueue.fresh : CmdQueue :=
  { served := false, ring := 0, nslots := 0, wrptr := 0, rdptr := 0, prio := 0, port := 0, cring := 0,
    ncslots := 0, thread := 0, leader := none, headSince := 0, promoted := 0, running := [], records := 0,
    window := none, posted := false }

/-- The firmware block right after the reset signal: stage 0, nothing measured (R412, R413). -/
def Firmware.fresh : Firmware :=
  { stage := 0, degraded := false, error := 0, patchVer := 0, patchHash := [], qtab := 0, nqhdr := 0, bootctl := 0,
    patchAddr := 0, patchStat := 0, patchHeld := none, attNonce := [], attAddr := 0, attStat := 0, bands := [],
    toffs := [], liveCore := [], liveLant := [], ports := [], portUp := [], portStep := [], pools := [],
    window := 0, power := 30500, rr := [], fwTag := 0, nextTable := 0, noLead := [], unread := [], attJobs := [] }

def Cur.fresh : Cur :=
  { agent := .core 0, phase := .whole, pos := 0, next := 0, scope := 0, fin := false, vals := [], ids := [],
    faults := [], moved := false, trapAfter := none, waits := false, took := [], full := false }

/-- The machine right after the panel's reset signal: bring-up has not run, every core is free, every memory reads
zero (R413). -/
def State.reset : State :=
  { now := 0, timeBase := 0, turns := 0, agenda := [], free := 0, nextId := 0, cur := Cur.fresh,
    fw := Firmware.fresh, cores := [], pairs := [], clusters := [], domes := [], spireMon := [], domeMon := [],
    mem := [], poison := [], bad := [], ptes := [], reqs := [], reps := [], tops := [], launches := [], queues := [],
    freezes := [], notes := [], irqs := [], hostReads := [], peerReps := [], recalls := [], contexts := [], peerLeases := [] }

end Sys2Proof.Machine
end

