-- ==== Sys2Proof/Config.lean ====
section
/-! DEFINITION. What an implementation fixes and what the spec leaves open: constants without a body, of which no
proof can see a value. -/

namespace Sys2Proof.Config

open Sys2Proof.Machine

/-- Which agent takes the next turn when the agenda is empty: the interleaving of the panel's agents. -/
opaque chooseTurn : Nat → Turn

/-- A value the spec leaves open, by the count of such values drawn before. -/
opaque freeBits : Nat → BitVec 64

/-- The SM3 hash, an algorithm the spec names (R95, R413, R417). -/
opaque sm3 : List Byte → List Byte

/-- Whether an SM2 signature verifies over a hash under the ROM key of an id (R415). -/
opaque sm2Verify : BitVec 64 → List Byte → List Byte → Bool

/-- Whether ROM holds a key of this id (R415). -/
opaque romKey : BitVec 64 → Bool

/-- The signature of the device identity key over a hash (R417). -/
opaque sm2Sign : List Byte → List Byte

/-- ROM firmware version (R412). -/
opaque romVer : BitVec 32

/-- The public key of the device identity, 64 bytes as a number (R412, R416). -/
opaque idPub : BitVec 512

/-- Single-bit errors that a cycle corrects in the memories of an agent: a core, or a lantern pair from 8192 on (R169, R182,
R346, R347: when one arises is open). -/
opaque corrected : Nat → Nat → Nat

/-- Pseudo-channel * 16 + bank of a block of a dome (R208: the map is not given). -/
opaque bankOf : Nat → Nat → Nat

end Sys2Proof.Config
end

