-- ==== Sys2Proof/Machine/Memory.lean ====
section
/-! DEFINITION. The one byte store of the panel in its canonical form, numbers and bytes, and where each memory's bytes
stand in it. An address no entry lists reads as zero. -/

namespace Sys2Proof.Machine

/-- Read of one byte. -/
def Memory.get : Memory → Nat → Byte
  | [], _ => 0
  | (k, b) :: m, a => if k == a then b else if a < k then 0 else Memory.get m a

/-- Write of one byte, keeping the canonical form: writing zero removes the entry. -/
def Memory.set : Memory → Nat → Byte → Memory
  | [], a, b => if b == 0 then [] else [(a, b)]
  | (k, c) :: m, a, b =>
    if a < k then (if b == 0 then (k, c) :: m else (a, b) :: (k, c) :: m)
    else if a == k then (if b == 0 then m else (a, b) :: m)
    else (k, c) :: Memory.set m a b

/-- Every address is at least `lo`, addresses rise, and no byte is zero. -/
def Memory.wfFrom : Nat → Memory → Bool
  | _, [] => true
  | lo, (k, b) :: m => lo ≤ k && b != 0 && Memory.wfFrom (k + 1) m

/-- The canonical form. -/
def Memory.wf (m : Memory) : Bool := Memory.wfFrom 0 m

/-- The bytes at a, a + 1, … -/
def Memory.read (m : Memory) (a : Nat) : Nat → List Byte
  | 0 => []
  | n + 1 => m.get a :: Memory.read m (a + 1) n

/-- Writing bytes at a, a + 1, … -/
def Memory.write (m : Memory) (a : Nat) : List Byte → Memory
  | [] => m
  | b :: bs => Memory.write (m.set a b) (a + 1) bs

/-- Clearing the bytes of [lo, hi) to zero. -/
def Memory.clear (m : Memory) (lo hi : Nat) : Memory := m.filter (fun c => c.1 < lo || hi ≤ c.1)

/-- Little-endian value of a list of bytes (R3). -/
def ofBytes : List Byte → Nat
  | [] => 0
  | b :: bs => b.toNat + 256 * ofBytes bs

/-- The n bytes of a value, lowest first (R3). -/
def toBytes (v : Nat) : Nat → List Byte
  | 0 => []
  | n + 1 => BitVec.ofNat 8 v :: toBytes (v / 256) n

/-- A naturally aligned number of n bytes. -/
def Memory.num (m : Memory) (a n : Nat) : Nat := ofBytes (m.read a n)

/-! ## Sparse lists -/

def look {α : Type} (l : List (Nat × α)) (k : Nat) : Option α := (l.find? (fun x => x.1 == k)).map (·.2)
def lookD {α : Type} (l : List (Nat × α)) (k : Nat) (d : α) : α := (look l k).getD d
/-- Replaces the value of a key in place, or adds the key at the end. -/
def put {α : Type} : List (Nat × α) → Nat → α → List (Nat × α)
  | [], k, v => [(k, v)]
  | (j, w) :: l, k, v => if j == k then (k, v) :: l else (j, w) :: put l k v
def drop {α : Type} (l : List (Nat × α)) (k : Nat) : List (Nat × α) := l.filter (fun x => x.1 != k)

/-! ## Where memories stand

Device physical addresses below 2^56 stand for themselves: dome memory, CLM at its window, host and peer memory
(R188, R193, R397, R402). The scratchpads, the lantern memories and the staging copy of a matrix load have no
physical address; their bytes stand above. -/

def spSize : Nat → Nat
  | 0 => 4096
  | 1 => 524288
  | 2 => 1048576
  | 3 => 262144
  | _ => 4194304

def clmBase (cluster : Nat) : Nat := 0x8000000000000 + cluster * 2 ^ 22

/-- Byte 0 of local space sp of core c (R66): a scratchpad, or the CLM of its cluster. -/
def localBase (c sp : Nat) : Nat :=
  if sp == 4 then clmBase (c / 8) else 2 ^ 60 + (c * 4 + sp) * 2 ^ 20

/-- Byte address of word j of CMEM row r (R169). -/
def cmemAt (c r j : Nat) : Nat := localBase c 3 + 512 * r + 4 * j

def lanternBase (p : Nat) : Nat := 2 ^ 61 + p * 2 ^ 16

/-- Exposed latency of a local space (R179). -/
def spLat : Nat → Nat
  | 0 => 1
  | 4 => 10
  | _ => 3

end Sys2Proof.Machine
end

