-- ==== Sys2Proof/Machine/Geom.lean ====
section
/-! DEFINITION. Sites, routes and path costs (R7 to R14), regions, and the bounds that follow from them (R350). -/

namespace Sys2Proof.Machine

/-- Site of spire n and of dome n (R8). -/
def spireSite (n : Nat) : Nat × Nat := (2 * (n % 8) + n / 8 % 2, n / 8)
def domeSite (n : Nat) : Nat × Nat := (2 * (n % 8) + 1 - n / 8 % 2, n / 8)

/-- Region of a site (R9). -/
def regionOf (p : Nat × Nat) : Nat := 4 * (p.2 / 4) + p.1 / 4

/-- Crossings met walking along row y from column x0 to x1, and along column x from row y0 to y1 (R13). -/
def rowCrossings (y a b : Nat) : List Nat :=
  ([0, 1, 2].filter (fun k => min a b ≤ 4 * k + 3 && 4 * k + 4 ≤ max a b)).map (fun k => 16 * k + y)
def colCrossings (x a b : Nat) : List Nat :=
  ([0, 1, 2].filter (fun k => min a b ≤ 4 * k + 3 && 4 * k + 4 ≤ max a b)).map (fun k => 48 + 16 * k + x)

/-- The crossings of the route of R12: along the row first, then along the column. -/
def routeCrossings (p q : Nat × Nat) : List Nat := rowCrossings p.2 p.1 q.1 ++ colCrossings q.1 p.2 q.2

def dist (a b : Nat) : Nat := max a b - min a b
def hops (p q : Nat × Nat) : Nat := dist p.1 q.1 + dist p.2 q.2

/-- Upper bound of a crossing's adder by its band (R13). -/
def bandBound (band : Nat) : Nat := band + 2

/-- Path cost of a route under a band table (R14). -/
def pathCost (bands : List (Nat × Nat)) (p q : Nat × Nat) : Nat :=
  hops p q + ((routeCrossings p q).map (fun k => bandBound (lookD bands k 0))).foldl (· + ·) 0

/-- The smallest key among candidates, ties to the earliest. -/
def minBy (f : Nat → Nat) : List Nat → Option Nat
  | [] => none
  | x :: xs =>
    match minBy f xs with
    | none => some x
    | some y => if f y < f x then some y else some x

/-- Plovlink port domes (R314, R397) and Chimelink port domes (R401). -/
def plovDomes : List Nat := [24, 40, 72, 88]
def chimeDome (k : Nat) : Nat :=
  [0, 2, 4, 6, 7, 23, 39, 55, 71, 87, 103, 119, 121, 123, 125, 127].getD k 0

/-- Class of a physical address (R333). -/
def paClass (pa : Nat) : Nat := pa / 2 ^ 48

def domeOf (pa : Nat) : Nat := pa / 2 ^ 37 % 128
/-- Cluster index of a CLM window address (R188). -/
def clmOf (pa : Nat) : Nat := (pa - 0x8000000000000) / 2 ^ 22
def peerSlot (pa : Nat) : Nat := pa / 2 ^ 44 % 16

/-- Path cost from a site to the home of a physical address (R350). -/
def homePath (bands : List (Nat × Nat)) (site : Nat × Nat) (pa : Nat) : Nat :=
  if paClass pa == 0 then pathCost bands site (domeSite (domeOf pa))
  else if paClass pa == 8 then pathCost bands site (spireSite (clmOf pa / 8))
  else if paClass pa == 14 then pathCost bands site (domeSite (chimeDome (peerSlot pa)))
  else
    match minBy (fun d => pathCost bands site (domeSite d)) plovDomes with
    | some d => pathCost bands site (domeSite d)
    | none => 0

/-- Padded access at the home (R350). -/
def padded (pa : Nat) : Nat :=
  if paClass pa == 0 then 120 else if paClass pa == 8 then 24 else if paClass pa == 14 then 960 else 720

def coreSite (c : Nat) : Nat × Nat := spireSite (c / 64)

/-- The four neighbours of a dome's site that are spires (R269), ascending. -/
def adjacentSpires (d : Nat) : List Nat :=
  (List.range 128).filter (fun n => hops (spireSite n) (domeSite d) == 1)

end Sys2Proof.Machine
end

