-- ==== Sys2Proof/Machine/Ops.lean ====
section
/-! DEFINITION. The named operations over the state: agents and their sequencers, register queues, plain registers,
local memories, and taking a trap (R376 to R378, R313). -/

namespace Sys2Proof.Machine

/-! ## Parts of the state -/

def State.core (s : State) (c : Nat) : Core := lookD s.cores c Core.fresh
def State.setCore (s : State) (c : Nat) (k : Core) : State := { s with cores := put s.cores c k }
def State.modCore (s : State) (c : Nat) (f : Core → Core) : State := s.setCore c (f (s.core c))
def State.pair (s : State) (p : Nat) : Pair := lookD s.pairs p Pair.fresh
def State.setPair (s : State) (p : Nat) (k : Pair) : State := { s with pairs := put s.pairs p k }
def State.modPair (s : State) (p : Nat) (f : Pair → Pair) : State := s.setPair p (f (s.pair p))
def State.cluster (s : State) (n : Nat) : Cluster := lookD s.clusters n Cluster.fresh
def State.setCluster (s : State) (n : Nat) (k : Cluster) : State := { s with clusters := put s.clusters n k }
def State.dome (s : State) (d : Nat) : Dome := lookD s.domes d Dome.fresh
def State.setDome (s : State) (d : Nat) (k : Dome) : State := { s with domes := put s.domes d k }
def State.modDome (s : State) (d : Nat) (f : Dome → Dome) : State := s.setDome d (f (s.dome d))
def State.queue (s : State) (q : Nat) : CmdQueue := lookD s.queues q CmdQueue.fresh
def State.setQueue (s : State) (q : Nat) (k : CmdQueue) : State := { s with queues := put s.queues q k }
def State.modQueue (s : State) (q : Nat) (f : CmdQueue → CmdQueue) : State := s.setQueue q (f (s.queue q))

/-- A running command ends with a status and a detail; its record is still to be written (R326). -/
def completeCmd (q slot status : Nat) (detail : W64) (s : State) : State :=
  s.modQueue q (fun k => { k with running := k.running.map (fun r =>
    if r.hdr.slot == slot && r.done.isNone then { r with done := some (status, detail) } else r) })

/-- The sequencer of an agent. -/
def State.seq (s : State) : Agent → Seq
  | .core c => (s.core c).seq
  | .lanA p => (s.pair p).a
  | .lanE p => (s.pair p).e
def State.setSeq (s : State) (a : Agent) (q : Seq) : State :=
  match a with
  | .core c => s.modCore c (fun k => { k with seq := q })
  | .lanA p => s.modPair p (fun k => { k with a := q })
  | .lanE p => s.modPair p (fun k => { k with e := q })
def State.modSeq (s : State) (a : Agent) (f : Seq → Seq) : State := s.setSeq a (f (s.seq a))

def threadOf : Agent → Thread
  | .core _ => .core
  | .lanA _ => .lanA
  | .lanE _ => .lanE
/-- The core an agent is, 0 for a lantern thread (which no core form reaches). -/
def coreOf : Agent → Nat
  | .core c => c
  | _ => 0
def pairOf : Agent → Nat
  | .core _ => 0
  | .lanA p => p
  | .lanE p => p

/-- The group of a lantern pair: that of the deterministic launch that has loaded it, or the pair alone (R349, R311). -/
def pairGroup (k : Pair) (p : Nat) : Group :=
  match k.detMode, k.launch with
  | true, some n => .launch n
  | _, _ => .pair p

/-- The synchronised group of an agent (R349, R311). -/
def State.groupOf (s : State) : Agent → Group
  | .core c =>
    match (s.core c).detMode, (s.core c).launch with
    | true, some n => .launch n
    | _, _ => .core c
  | .lanA p => pairGroup (s.pair p) p
  | .lanE p => pairGroup (s.pair p) p

/-- Whether a freeze stops an agent at its present VCC (R353). -/
def State.frozen (s : State) (a : Agent) : Bool :=
  s.freezes.any (fun f => f.group == s.groupOf a && f.at_ ≤ (s.seq a).vcc)

/-- The cycle, in the VCC of its agent, at which the bundle at hand issues. -/
def State.at (s : State) : Nat := (s.seq s.cur.agent).vcc

/-- A value the spec leaves open, fresh each time. -/
def State.draw (s : State) : W64 × State := (Config.freeBits s.free, { s with free := s.free + 1 })

/-- A new number for an access, a T-op or a launch. -/
def State.freshId (s : State) : Nat × State := (s.nextId, { s with nextId := s.nextId + 1 })

/-! ## Register queues -/

def inHandler (k : Core) : Bool := k.uistat.getLsbD 4

/-- The queue that a scalar name stands for: inside a handler, x56 to x63 are the shadow queues (R106). -/
def State.xq (s : State) (a : Agent) (n : Nat) : QName :=
  match a with
  | .core c => if inHandler (s.core c) && 56 ≤ n then ⟨.sh, n⟩ else ⟨.x, n⟩
  | _ => ⟨.x, n⟩

/-- Whether a queue joins the two threads of a pair (R98, R306). -/
def isLink (a : Agent) (q : QName) : Bool :=
  match a with
  | .core _ => false
  | _ => q == ⟨.x, 62⟩ || q == ⟨.x, 63⟩ || q == ⟨.v, 1534⟩ || q == ⟨.v, 1535⟩

/-- The thread that holds a queue: a joining queue stands with its reader. -/
def queueHolder (a : Agent) (q : QName) : Agent :=
  match a with
  | .core c => .core c
  | .lanA p => if q == ⟨.x, 62⟩ || q == ⟨.v, 1535⟩ then .lanE p else .lanA p
  | .lanE p => if q == ⟨.x, 63⟩ || q == ⟨.v, 1534⟩ then .lanA p else .lanE p

/-- Depth of a queue (R97, R98). -/
def queueDepth (a : Agent) (q : QName) : Nat :=
  match q.kind with
  | .v => if isLink a q then (if q.n == 1535 then 64 else 32) else 2
  | _ => 4

def Seq.entries (k : Seq) (q : QName) : List Entry :=
  match k.queues.find? (fun x => x.1 == q) with
  | some x => x.2
  | none => []
def putQ : List (QName × List Entry) → QName → List Entry → List (QName × List Entry)
  | [], q, v => [(q, v)]
  | (j, w) :: l, q, v => if j == q then (q, v) :: l else (j, w) :: putQ l q v
def Seq.setEntries (k : Seq) (q : QName) (l : List Entry) : Seq := { k with queues := putQ k.queues q l }

def State.entries (s : State) (a : Agent) (q : QName) : List Entry := (s.seq (queueHolder a q)).entries q
def State.setEntries (s : State) (a : Agent) (q : QName) (l : List Entry) : State :=
  s.modSeq (queueHolder a q) (fun k => k.setEntries q l)

def qOverflow : BitVec 8 := 0x06
def qUnderflow : BitVec 8 := 0x07
def cShadow : BitVec 8 := 0x08
def cRegionOverrun : BitVec 8 := 0x09
def cLoopFault : BitVec 8 := 0x0A
def cAlign : BitVec 8 := 0x0B
def cBounds : BitVec 8 := 0x0C
def cHandleFault : BitVec 8 := 0x0D
def cTlbMiss : BitVec 8 := 0x0E
def cPageFault : BitVec 8 := 0x0F
def cLeaseRecalled : BitVec 8 := 0x10
def cGateOverflow : BitVec 8 := 0x11
def cAccError : BitVec 8 := 0x13
def cPlacedFault : BitVec 8 := 0x14
def cGrammarOrder : BitVec 8 := 0x15
def cGrammarDepth : BitVec 8 := 0x16
def cGrammarFormat : BitVec 8 := 0x17
def cFreezeTimeout : BitVec 8 := 0x18
def cNondet : BitVec 8 := 0x19

/-- What a read can end in. -/
inductive ReadRes where
  | got (v : V512) (s : State)
  | fault (cause : BitVec 8) (f : FRec)
  /-- the bundle waits for a joining queue (R306) -/
  | waits

/-- The record of a poisoned reply (R377 kind 5). -/
def frecPoison (pos : Pos) (pa : Nat) : FRec :=
  { FRec.none with kind := 5, slot := pos, r0 := BitVec.ofNat 64 (pa / 64 * 64) }

/-- pop and peek of R79 with the traps of R102; a poisoned entry raises ACC_ERROR (R385). A read that traps takes nothing, so
that a later read of its bundle meets the same entry: for a poisoned one the spec leaves this open, and the choice is the
model's (DESIGN CHOICE). -/
def readQueue (s : State) (a : Agent) (pos : Pos) (q : QName) (peek : Bool) : ReadRes :=
  match s.entries a q with
  | [] => if isLink a q then .waits else .fault qUnderflow FRec.none
  | e :: rest =>
    match e.data with
    | none => if isLink a q then .waits else .fault cShadow FRec.none
    | some v =>
      if (s.seq a).vcc < e.due then (if isLink a q then .waits else .fault cShadow FRec.none)
      else
        match e.poison with
        | some pa => .fault cAccError (frecPoison pos pa)
        | none => .got v (if peek then s else s.setEntries a q rest)

/-- push of R79: reserves the youngest entry, or none where the queue is full. -/
def reserve (s : State) (a : Agent) (q : QName) (due : Nat) : Option (Nat × State) :=
  let l := s.entries a q
  if queueDepth a q ≤ l.length then none
  else
    let h := queueHolder a q
    let id := (s.seq h).nid
    some (id, s.modSeq h (fun k =>
      { k.setEntries q (l ++ [{ id := id, due := due, data := none, poison := none }]) with nid := id + 1 }))

/-- land of R79: the value of a reserved entry arrives. -/
def landEntry (s : State) (a : Agent) (q : QName) (id : Nat) (v : V512) (poison : Option Nat) : State :=
  s.setEntries a q ((s.entries a q).map (fun e => if e.id == id then { e with data := some v, poison := poison } else e))

/-! ## Plain registers -/

/-- p0 reads all ones (R97). -/
def State.pred (s : State) (a : Agent) (n : Nat) : W64 :=
  if n == 0 then BitVec.allOnes 64 else lookD (s.seq a).preds n 0

/-- The register a plain write names, as a number, to tell writes of one register. -/
def RegWr.key : RegWr → Nat
  | .pred n _ => n
  | .loop n _ => 100 + n
  | .handle n _ => 200 + n
  | .stream n _ => 300 + n
  | .kreg n _ => 400 + n
  | .desc n _ _ => 500 + n
  | .uivec _ => 600
  | .uistat _ => 601

/-- Schedules a plain-register write (R100). Where two slots of one bundle write one register, the later slot's
value stands from the later due cycle on (R103). -/
def schedule (s : State) (a : Agent) (w : PendWr) : State :=
  s.modSeq a (fun k =>
    { k with pend := (k.pend.filter (fun x => !(x.ser == w.ser && x.wr.key == w.wr.key && w.due < x.due))) ++ [w] })

/-- Applies a plain-register write whose due cycle has come. -/
def applyWr (s : State) (a : Agent) (w : RegWr) : State :=
  match w with
  | .pred n v => if n == 0 then s else s.modSeq a (fun k => { k with preds := put k.preds n v })
  | .loop n v => s.modCore (coreOf a) (fun k => { k with loops := put k.loops n v })
  | .handle n h => s.modCore (coreOf a) (fun k => { k with handles := put k.handles n h })
  | .stream n (some v) => s.modCore (coreOf a) (fun k => { k with streams := put k.streams n v })
  | .stream n none => s.modCore (coreOf a) (fun k => { k with streams := drop k.streams n })
  | .kreg n v => s.modCore (coreOf a) (fun k => { k with kregs := put k.kregs n v })
  | .desc n v po => s.modCore (coreOf a) (fun k => { k with descs := put k.descs n (v, po) })
  | .uivec v => s.modCore (coreOf a) (fun k => { k with uivec := v })
  | .uistat v => s.modCore (coreOf a) (fun k =>
      { k with uistat := (k.uistat &&& ~~~(v &&& 7#64) &&& ~~~(8#64)) ||| (v &&& 8#64) })

def Core.handle (k : Core) (n : Nat) : Handle := lookD k.handles n Handle.none
def Core.bell (k : Core) (b : Nat) : BellSt := lookD k.bells b BellSt.start

/-! ## The local memories -/

/-- Whether an uncorrectable unit lies under [a, a + n): 8-byte units, 4-byte words in CMEM (R169, R182). -/
def unitSize (u : Nat) : Nat := if 2 ^ 60 ≤ u && u < 2 ^ 61 && (u - 2 ^ 60) / 2 ^ 20 % 4 == 3 then 4 else 8
def State.badUnder (s : State) (a n : Nat) : Bool := s.bad.any (fun u => u < a + n && a < u + unitSize u)

/-- The uncorrectable units of a core's or a lantern's own memories under a list of ranges (R346, R347). -/
def State.unitsUnder (s : State) (l : List (Nat × Nat)) : Nat :=
  (s.bad.filter (fun u => 2 ^ 60 ≤ u && u < 2 ^ 62 && l.any (fun r => u < r.1 + r.2 && r.1 < u + unitSize u))).length

/-- The record of an access that met uncorrectable units. -/
def frecFound (s : State) (l : List (Nat × Nat)) : FRec := { FRec.none with found := s.unitsUnder l }

/-- Units found by an agent of a core that traps later, or not at all. -/
def countFound (s : State) (c : Nat) (l : List (Nat × Nat)) : State :=
  s.modCore c (fun k => { k with ueCnt := k.ueCnt + s.unitsUnder l })

/-- Writing bytes at a, a + 1, … but for those in the units given. -/
def Memory.writeBut (m : Memory) (part : List Nat) (a : Nat) : List Byte → Memory
  | [] => m
  | b :: bs => Memory.writeBut (if part.any (fun u => u ≤ a && a < u + unitSize u) then m else m.set a b) part (a + 1) bs

/-- A write of bytes into a local memory: it merges with nothing in an uncorrectable unit that it does not cover, and clears
those it covers; its other units are written (R182). -/
def State.localWrite (s : State) (a : Nat) (bs : List Byte) : State :=
  let covered := fun u => a ≤ u && u + unitSize u ≤ a + bs.length
  let part := s.bad.filter (fun u => u < a + bs.length && a < u + unitSize u && !covered u)
  { s with mem := (if part.isEmpty then s.mem.write a bs else s.mem.writeBut part a bs)
           bad := s.bad.filter (fun u => !covered u) }

/-- The writes of a core's bundles to local memories that are still to be performed. -/
def laterStores (k : Core) : List (Nat × List Byte) := k.seq.stores.map (fun x => (x.addr, x.bytes))

/-- The words of CMEM rows that a UMAC has formed and that are still to be written. -/
def laterRows (c : Nat) (k : Core) : List (Nat × List Byte) :=
  k.mx.writes.flatMap (fun w => (w.words.zipIdx).filterMap (fun y => y.1.map (fun v => (cmemAt c w.crow y.2, toBytes v 4))))

/-- Puts the bytes of a write into the units of a memory that `new` names. -/
def putUnits (new : Nat → Bool) (m : Memory) (w : Nat × List Byte) : Memory :=
  (w.2.zipIdx).foldl (fun m y =>
    let x := w.1 + y.2
    if new (x / unitSize x * unitSize x) then m.set x y.1 else m) m

/-- What a read of n bytes at a finds that no rule orders with some writes of its core still to be performed: each unit under one of
them is old or new, as a free value says (R159, R170, R181, R224, R421). In deterministic mode it is old, so that reruns agree (R359;
DESIGN CHOICE). -/
def State.readLater (s : State) (det : Bool) (ws : List (Nat × List Byte)) (a n : Nat) : List Byte × State :=
  let ws := ws.filter (fun w => w.1 < a + n && a < w.1 + w.2.length)
  if det || ws.isEmpty then (s.mem.read a n, s)
  else
    ((ws.foldl (putUnits (fun u => (Config.freeBits (s.free + (u + 8 - a) / 4)).getLsbD 0)) s.mem).read a n,
      { s with free := s.free + n / 4 + 4 })

/-- Such reads at several addresses. -/
def State.readsLater (s : State) (det : Bool) (ws : List (Nat × List Byte)) (n : Nat) : List Nat → List (List Byte) × State
  | [] => ([], s)
  | a :: l =>
    let r := s.readLater det ws a n
    let q := r.2.readsLater det ws n l
    (r.1 :: q.1, q.2)

/-- The stores of an agent that are due, performed in order (R180, R181). -/
def performStores (s : State) : List LocalSt → State
  | [] => s
  | x :: xs => performStores (s.localWrite x.addr x.bytes) xs

/-! ## Traps -/

/-- FAULTMASK and CAUSE of a list of faulting slots (R99, R377). -/
def maskOfFaults (fs : List SlotFault) : BitVec 6 :=
  fs.foldl (fun m f => m ||| BitVec.ofNat 6 (2 ^ posBit f.slot)) 0
def causeOfFaults (fs : List SlotFault) : BitVec 48 :=
  fs.foldl (fun m f => m ||| BitVec.ofNat 48 (f.cause.toNat * 2 ^ (8 * posBit f.slot))) 0

/-- The first faulting slot in slot order. -/
def firstFault (fs : List SlotFault) : Option SlotFault :=
  (allPos.filterMap (fun pos => fs.find? (fun f => f.slot == pos))).head?

def isRolled (cz : BitVec 8) : Bool := cz == cTlbMiss || cz == cLeaseRecalled

/-- The gated store buffer is discarded with the forwarding entries of its SPILLs (R378, R382). -/
def discardGated (k : Core) : Core := { k with gated := [], fwd := k.fwd.filter (fun f => f.due.isSome) }

/-- Whether a trap of these causes is rolled back: open mode, a snapshot, no handler, and no other cause (R377,
R379); LEASE_RECALLED at CWAIT is reported (R376). -/
def rollsBack (k : Core) (fs : List SlotFault) : Bool :=
  !fs.isEmpty && !k.detMode && k.snap.isSome && !inHandler k && fs.all (fun f => isRolled f.cause && f.frec.kind != 3)

/-- In deterministic mode a cause that would be rolled back, and a page fault, is NONDET_FAULT (R358, R377). -/
def detCauses (k : Core) (fs : List SlotFault) : List SlotFault :=
  if k.detMode then fs.map (fun f => if isRolled f.cause || f.cause == cPageFault then { f with cause := cNondet } else f) else fs

/-- A wait at CWAIT keeps its reserved entry until the command is reported, though its core has trapped (R105, R247). -/
def Wait.keepsEntry : Wait → Bool
  | .cwait .. => true
  | _ => false

/-- The uncorrectable units that the accesses of faulting slots have found. -/
def foundIn (fs : List SlotFault) : Nat := (fs.map (fun f => f.frec.found)).foldl (· + ·) 0

/-- Whether an IBUF_ERROR comes of an uncorrectable entry of the dictionary store (R63, R377). -/
def badEntry (k : Core) (fs : List SlotFault) : Bool :=
  fs.any (fun f => f.frec.kind == 6 && f.frec.r0.getLsbD 24 && k.badDict.contains f.frec.r1.toNat)

/-- The byte of a slot among causes. -/
def byteOf (cause : BitVec 48) (pos : Pos) : BitVec 8 := BitVec.ofNat 8 (cause.toNat / 2 ^ (8 * posBit pos))

/-- The cause byte of the first faulting slot in slot order. -/
def firstByte (mask : BitVec 6) (cause : BitVec 48) : Nat :=
  match allPos.find? (fun pos => mask.getLsbD (posBit pos)) with
  | some pos => (byteOf cause pos).toNat
  | none => 0

/-- Taking a trap on a core: FAULTMASK, CAUSE, EPC and the fault record are written, an open quiet region closes, and
the core stops issuing to roll back, to have its instruction buffer reloaded, or to report (R109, R377, R378,
R382, R386); inside a handler it reports (R384). A reload counts in UECNT, and so does an uncorrectable entry of the dictionary store
that no reload mends (R346, R386). -/
def trapCore (k : Core) (fs : List SlotFault) (epc : Nat) : Core :=
  let fs := detCauses k fs
  let ibuf := !fs.isEmpty && fs.all (fun f => f.cause == causeIbufError)
  let reload := ibuf && k.ibufAt != some epc && !inHandler k
  let k := { k with faultMask := maskOfFaults fs, cause := causeOfFaults fs, epc := BitVec.ofNat 24 epc,
                    frec := (match firstFault fs with | some f => f.frec | none => FRec.none),
                    quiet := none,
                    ueCnt := k.ueCnt + foundIn fs + (if reload || (ibuf && badEntry k fs) then 1 else 0),
                    ftoCnt := k.ftoCnt + (if fs.any (fun f => f.cause == cFreezeTimeout) then 1 else 0) }
  if reload then
    { k with mode := .reload, ibufAt := some epc, tagImage := none }
  else if rollsBack k fs then { discardGated k with mode := .roll fs }
  else { discardGated k with mode := .trap false, waits := k.waits.filter Wait.keepsEntry }

/-- The report of a lantern thread's trap (R313). -/
def lanternReport (e : Bool) (fs : List SlotFault) (epc : Nat) : LFault :=
  ⟨e, epc, maskOfFaults fs, causeOfFaults fs⟩

/-- A lantern thread's trap stops its pair, whose count takes the units that it found (R313, R345). -/
def trapPair (e : Bool) (k : Pair) (fs : List SlotFault) (epc : Nat) : Pair :=
  { k with faulted := some (lanternReport e fs epc), ueCnt := k.ueCnt + foundIn fs }

/-- Taking a trap on any sequencer: a core as above, with the cycle of the trap, from which a reload counts (R386); a lantern
thread stops its pair and keeps the report of R313. -/
def takeTrap (s : State) (a : Agent) (fs : List SlotFault) (epc : Nat) : State :=
  match a with
  | .core c => s.modCore c (fun k => { trapCore k fs epc with trapAt := s.now })
  | .lanA p => s.modPair p (fun k => trapPair false k fs epc)
  | .lanE p => s.modPair p (fun k => trapPair true k fs epc)

/-- A fault that no slot of a bundle raises, recorded in one slot (R422). -/
def oneFault (pos : Pos) (cz : BitVec 8) (f : FRec) : List SlotFault :=
  [{ slot := pos, cause := cz, frec := { f with slot := pos } }]

end Sys2Proof.Machine
end

