-- ==== Sys2Proof/Machine/Flags.lean ====
section
/-! DEFINITION. Predicates as flags: the lane mask of a slot, when a slot is true (R60, R132), and what the scalar
compares and the predicate forms write (R116, R117). -/

namespace Sys2Proof.Machine

/-- The lane mask of a vector slot, p[pred] under sense (R132). -/
def maskOf (p : Pre) (s : State) : W64 :=
  let v := s.pred s.cur.agent p.pred.toNat
  if p.sense then ~~~v else v

/-- Whether a slot is true (R60, R132). -/
def slotTrue (p : Pre) (lane : Nat) (s : State) : Bool :=
  if lane == 0 then (maskOf p s).getLsbD 0 else anyLane lane (maskOf p s)

/-- All ones when a relation holds, else zero (R116). -/
def flagAll (b : Bool) : W64 := if b then BitVec.allOnes 64 else 0

/-- A predicate source under its inversion bit (R117). -/
def predSrc (s : State) (n : BitVec 4) (inv : Bool) : W64 :=
  let v := s.pred s.cur.agent n.toNat
  if inv then ~~~v else v

end Sys2Proof.Machine
end

