-- ==== Sys2Proof/Machine/Operands.lean ====
section
/-! DEFINITION. Operand forms and the issue of one slot: what each source code reads (R64, R79, R133, R191), what a
slot reserves, and the three phases of R79. -/

namespace Sys2Proof.Machine

/-- A source operand of a slot: a scalar queue, or a vector operand of R64. -/
inductive Src where
  | x (n : Nat) (peek : Bool)
  | v (o : VOp)
  deriving DecidableEq, Repr

/-- Element k of a stream, from AMEM as it stands (R191). -/
def streamElem (s : State) (c : Nat) (g : Stream) (ty : BitVec 4) (k : Nat) : Nat :=
  let bitAt := 8 * g.start + g.first + k / g.n * g.period + k % g.n * g.w
  let raw := s.mem.num (localBase c 1 + bitAt / 8) 4 / 2 ^ (bitAt % 8) % 2 ^ g.w
  wrapN (asInt (isSigned ty) g.w raw) (8 * laneBytes ty)

/-- The first and the last AMEM byte that element k lies in. -/
def streamBeg (g : Stream) (k : Nat) : Nat := (8 * g.start + g.first + k / g.n * g.period + k % g.n * g.w) / 8
def streamEnd (g : Stream) (k : Nat) : Nat :=
  (8 * g.start + g.first + k / g.n * g.period + k % g.n * g.w + g.w - 1) / 8

/-- A stream operand (R190, R191): BOUNDS without a pattern or past AMEM, ACC_ERROR on an uncorrectable unit or a
poisoned pattern. -/
def readStream (s : State) (a : Agent) (pos : Pos) (n : Nat) (ty : BitVec 4) : ReadRes :=
  let c := coreOf a
  match look (s.core c).streams n with
  | none => .fault cBounds FRec.none
  | some g =>
    match g.poison with
    | some pa => .fault cAccError (frecPoison pos pa)
    | none =>
      let m := laneCount ty
      let ks := (List.range m).map (fun i => g.pos + i)
      if ks.any (fun k => 524287 < streamEnd g k) then .fault cBounds FRec.none
      else if ks.any (fun k => s.badUnder (localBase c 1 + streamBeg g k) (streamEnd g k + 1 - streamBeg g k)) then
        .fault cAccError (frecFound s (ks.map (fun k => (localBase c 1 + streamBeg g k, streamEnd g k + 1 - streamBeg g k))))
      else
        .got (genLanes (laneBytes ty) (fun i => streamElem s c g ty (g.pos + i)))
          (s.modCore c (fun k => { k with streams := put k.streams n { g with pos := g.pos + m } }))

/-- Reads one source operand (R79, R133). -/
def readSrc (s : State) (a : Agent) (pos : Pos) : Src → ReadRes
  | .x n peek => readQueue s a pos (s.xq a n) peek
  | .v o =>
    let n := o.code.toNat
    if n ≤ 1535 then
      match readQueue s a pos ⟨.v, n⟩ o.peek with
      | .got v s' => .got (trimTF6 o.ty v) s'
      | r => r
    else if n ≤ 1567 then
      match readStream s a pos (n - 1536) o.ty with
      | .got v s' => .got (trimTF6 o.ty v) s'
      | r => r
    else if n ≤ 1663 then
      match readQueue s a pos (s.xq a (n - 1600)) o.peek with
      | .got v s' => .got (trimTF6 o.ty (bcastVec o.ty v)) s'
      | r => r
    else .got (constVec n o.ty) s

/-- A slot's reads of which one has trapped or must wait: the values read, 0 for those missed, the state after all of them,
the first trap, and whether a joining queue makes the bundle wait (R102, R306). -/
structure ReadStop where
  vals : List V512
  state : State
  fault : Option (BitVec 8 × FRec)
  waits : Bool

/-- A read that has trapped or waits, and the reads of the slot after it, which R79 makes all the same. -/
def readRest (a : Agent) (pos : Pos) : List Src → ReadStop → ReadStop
  | [], r => r
  | x :: xs, r =>
    match readSrc r.state a pos x with
    | .got v s => readRest a pos xs { r with vals := r.vals ++ [v], state := s }
    | .fault cz f => readRest a pos xs { r with vals := r.vals ++ [0], fault := r.fault.or (some (cz, f)) }
    | .waits => readRest a pos xs { r with vals := r.vals ++ [0], waits := true }

/-- Reads a slot's sources in field order. -/
def readSrcs (a : Agent) (pos : Pos) : List Src → State → List V512 → Except ReadStop (List V512 × State)
  | [], s, acc => .ok (acc, s)
  | x :: xs, s, acc =>
    match readSrc s a pos x with
    | .got v s' => readSrcs a pos xs s' (acc ++ [v])
    | .fault cz f => .error (readRest a pos xs { vals := acc ++ [0], state := s, fault := some (cz, f), waits := false })
    | .waits => .error (readRest a pos xs { vals := acc ++ [0], state := s, fault := none, waits := true })

/-- What a true slot does once it has read its sources: a fault of its own checks, or whether its bundle must wait for
room, the places it takes in the tables that both channel slots share, the queue entries it reserves with their due
cycles, and its effect given the entries' numbers. -/
structure Act where
  fault : Option (BitVec 8 × FRec)
  dsts : List (QName × Nat)
  commit : List Nat → State → State
  wait : Bool := false
  take : List Nat := []

/-- What a slot instruction is: the lane width its mask counts (0 outside VA and VB), its sources, its act, and the queues that it
pushes to where its act ends in a fault. -/
structure Plan where
  lane : Nat
  srcs : List Src
  act : List V512 → Act
  outs : List QName := []

def posAssoc {α : Type} (l : List (Pos × α)) (p : Pos) (d : α) : α :=
  match l.find? (fun x => x.1 == p) with
  | some x => x.2
  | none => d

def State.addFault (s : State) (pos : Pos) (cz : BitVec 8) (f : FRec) : State :=
  { s with cur := { s.cur with faults := s.cur.faults ++ [{ slot := pos, cause := cz, frec := { f with slot := pos } }] } }

/-- The bundle at hand with a slot's values. -/
def Cur.latch (c : Cur) (pos : Pos) (vs : List V512) : Cur := { c with vals := c.vals ++ [(pos, vs)] }

/-- Reading: the slot's sources are read and kept. A slot of which a read traps keeps its other reads, for the slots after
it, and still makes its pushes (R79). -/
def readPhase (p : Pre) (pl : Plan) (s : State) : State :=
  if slotTrue p pl.lane s then
    match readSrcs s.cur.agent p.pos pl.srcs s [] with
    | .ok (vs, s') => { s' with cur := s'.cur.latch p.pos vs }
    | .error r =>
      let s1 := { r.state with cur := { s.cur.latch p.pos r.vals with waits := s.cur.waits || r.waits } }
      match r.fault with
      | some (cz, f) => s1.addFault p.pos cz f
      | none => s1
  else s

/-- Reserves a list of destinations in order. -/
def reserveAll (a : Agent) : List (QName × Nat) → State → List Nat → Except Bool (List Nat × State)
  | [], s, ids => .ok (ids, s)
  | (q, due) :: r, s, ids =>
    match reserve s a q due with
    | some (id, s') => reserveAll a r s' (ids ++ [id])
    | none => .error (isLink a q)

/-- The values a slot has read: none where the slot is not true. -/
def State.latched (s : State) (pos : Pos) : Option (List V512) :=
  (s.cur.vals.find? (fun x => x.1 == pos)).map (·.2)

/-- Whether a slot of the bundle at hand has trapped. -/
def Cur.slotBad (c : Cur) (pos : Pos) : Bool := c.faults.any (fun f => f.slot == pos)

/-- Checking and reserving (R79). Every true slot makes its pushes, one whose check or read has trapped too, so that a slot after it
meets the queues as they then stand. Which cause stands where a slot fails in two ways is the model's choice (DESIGN CHOICE): that of
its read, else that of its own check (BOUNDS, ALIGN, a handle's fault, GATE_OVERFLOW), though its push might overflow too. -/
def reservePhase (p : Pre) (pl : Plan) (s : State) : State :=
  match s.latched p.pos with
  | none => s
  | some vs =>
    let act := pl.act vs
    let bad := s.cur.slotBad p.pos
    match act.fault with
    | some (cz, f) =>
      let s' := if bad then s else s.addFault p.pos cz f
      (match reserveAll s.cur.agent (pl.outs.map (fun q => (q, s.at))) s' [] with
       | .ok (_, s'') => s''
       | .error _ => s')
    | none =>
      match reserveAll s.cur.agent act.dsts s [] with
      | .ok (ids, s') =>
        { s' with cur := { s'.cur with ids := s'.cur.ids ++ [(p.pos, ids)], took := s'.cur.took ++ act.take,
                                       full := s'.cur.full || (act.wait && !bad) } }
      | .error true => { s with cur := { s.cur with waits := true } }
      | .error false => if bad then s else s.addFault p.pos qOverflow FRec.none

/-- Committing: the slot's effect. -/
def commitPhase (p : Pre) (pl : Plan) (s : State) : State :=
  match s.latched p.pos with
  | none => s
  | some vs => (pl.act vs).commit (posAssoc s.cur.ids p.pos []) s

/-- A TRAP that has committed is taken once every slot of its bundle has (R129): the next position is recorded on a
core, the bundle's own in a lantern's report (R313). -/
def finishTrap (s : State) : State :=
  match s.cur.trapAfter with
  | none => s
  | some cz =>
    let s' := { s with cur := { s.cur with trapAfter := none } }
    takeTrap s' s.cur.agent (oneFault .sc cz FRec.none)
      (match s.cur.agent with | .core _ => s.cur.next | _ => s.cur.pos)

/-- Runs one slot instruction in the phase the bundle at hand has reached; taken by itself, all three phases in one
step, a trap leaving the state as it was but for the trap (R79). -/
def runSlot (p : Pre) (plan : State → Plan) (s : State) : State :=
  let pl := plan s
  match s.cur.phase with
  | .read => readPhase p pl s
  | .reserve => reservePhase p pl s
  | .commit => commitPhase p pl s
  | .whole =>
    let s1 := readPhase p pl s
    let s2 := reservePhase p pl s1
    if s2.cur.waits then s
    else if !s2.cur.faults.isEmpty then takeTrap s s.cur.agent s2.cur.faults s.cur.pos
    else if s2.cur.full then s
    else
      let s3 := finishTrap (commitPhase p pl s2)
      { s3 with cur := { s3.cur with vals := [], ids := [], took := [] } }

/-! ## Common acts -/

def Act.nothing : Act := { fault := none, dsts := [], commit := fun _ s => s }
def Act.trap (cz : BitVec 8) (f : FRec) : Act := { fault := some (cz, f), dsts := [], commit := fun _ s => s }
/-- An effect with no destination queue. -/
def Act.eff (f : State → State) : Act := { fault := none, dsts := [], commit := fun _ s => f s }

/-- A value pushed into a queue, due at a cycle. -/
def Act.push (a : Agent) (q : QName) (due : Nat) (v : V512) : Act :=
  { fault := none, dsts := [(q, due)], commit := fun ids s => landEntry s a q (ids.headD 0) v none }

/-- The place of the bundle at hand in its agent's program order. -/
def State.serial (s : State) : Nat :=
  match s.cur.agent with
  | .core c => (s.core c).nextSer
  | a => (s.pair (pairOf a)).nextSer

/-- A plain-register write of the bundle at hand, due at a cycle. -/
def scheduleNow (s : State) (pos : Pos) (due : Nat) (wr : RegWr) : State :=
  schedule s s.cur.agent { id := 0, due := due, wr := wr, ready := true, ser := s.serial, slot := pos, fill := none }
def Act.reg (pos : Pos) (due : Nat) (wr : RegWr) : Act := Act.eff (fun s => scheduleNow s pos due wr)

/-- The core at hand commits a wait beside those of its bundle; a bundle with END waits before its core ends. -/
def startWait (s : State) (w : Wait) : State :=
  s.modCore (coreOf s.cur.agent) (fun k => { k with waits := k.waits ++ [w], finWait := s.cur.fin })

/-- The waits that are under way: those of a running core, and a CWAIT's of a core that has trapped; a stop has cancelled
its own (R232). -/
def Core.liveWaits (k : Core) : List Wait :=
  match k.mode with
  | .run => k.waits
  | .trap _ => k.waits
  | _ => []

/-- A core of which a wait has ended: after the last one a core whose bundle held END ends. -/
def afterWait (k : Core) : Core :=
  if k.waits.isEmpty && k.finWait then
    { k with mode := (match k.mode with | .run => .ended | m => m), finWait := false }
  else k

/-- A wait is over: the next bundle issues at a cycle or later, or the core ends. The later cycle that a transfer or another
wait of the bundle gives stands (R118, R124). -/
def wakeCore (k : Core) (w : Wait) (t : Nat) : Core :=
  afterWait { k with waits := k.waits.filter (· != w), seq := { k.seq with nextAt := max k.seq.nextAt t } }

/-- How many places of a shared table earlier slots of the bundle at hand have taken and not yet filled: while slots commit,
each fills its own before the next slot looks. -/
def State.taken (s : State) (key : Nat) : Nat :=
  match s.cur.phase with
  | .commit => 0
  | _ => s.cur.took.count key

def toV (v : W64) : V512 := v.setWidth 512
def toX (v : V512) : W64 := v.setWidth 64

end Sys2Proof.Machine
end

