-- ==== Sys2Proof/Machine/Scalar.lean ====
section
/-! DEFINITION. The SC forms that compute: moves, arithmetic, logic, immediates, compares and predicate forms
(R110 to R117). -/

namespace Sys2Proof.Machine

abbrev Out := Host.Outcome State Fault Refusal

/-- A scalar result pushed into xd, due L cycles after issue (R110). -/
def pushX (s : State) (xd : BitVec 6) (L : Nat) (v : W64) : Act :=
  Act.push s.cur.agent (s.xq s.cur.agent xd.toNat) (s.at + L) (toV v)

/-- The low w bits of a source that a slot has read. -/
def srcN (w : Nat) (vs : List V512) (k : Nat) : Nat := lowBits w (toX (vs.getD k 0))

/-- A three-operand form (R113): g computes on the w-bit operands, the result is extended by sgn and due after L. -/
def runS3 (p : Pre) (f : FmtS3) (L : Nat) (sgn : Bool) (g : Nat → Nat → Nat → Int) (s : State) : State :=
  runSlot p (fun s => { lane := 0, srcs := [.x f.xa.toNat f.pa, .x f.xb.toNat f.pb],
                        act := fun vs => let w := opWidth f.sz
                                         pushX s f.xd L (extend sgn w (g w (srcN w vs 0) (srcN w vs 1))) }) s

/-- A one-source form (R113). -/
def runS1 (p : Pre) (f : FmtS3) (L : Nat) (sgn : Bool) (g : Nat → Nat → Int) (s : State) : State :=
  runSlot p (fun s => { lane := 0, srcs := [.x f.xa.toNat f.pa],
                        act := fun vs => let w := opWidth f.sz
                                         pushX s f.xd L (extend sgn w (g w (srcN w vs 0))) }) s

/-- An immediate form (R115): the immediate is sign-extended and taken to w bits. -/
def runSI (p : Pre) (f : FmtSI) (sgn : Bool) (g : Nat → Nat → Nat → Int) (s : State) : State :=
  runSlot p (fun s => { lane := 0, srcs := [.x f.xa.toNat f.pa],
                        act := fun vs => let w := opWidth f.sz
                                         pushX s f.xd 1 (extend sgn w (g w (srcN w vs 0) (wrapN f.imm.toInt w))) }) s

/-- A scalar compare (R116). -/
def runSQ (p : Pre) (f : FmtSQ) (g : Nat → Nat → Nat → Bool) (s : State) : State :=
  runSlot p (fun s => { lane := 0, srcs := [.x f.xa.toNat f.pa, .x f.xb.toNat f.pb],
                        act := fun vs => let w := opWidth f.sz
                                         Act.reg p.pos (s.at + 1)
                                           (.pred f.pd.toNat (flagAll (g w (srcN w vs 0) (srcN w vs 1)))) }) s

/-- A predicate form on predicates (R117). -/
def runSP (p : Pre) (f : FmtSP) (g : W64 → W64 → W64) (s : State) : State :=
  runSlot p (fun s => { lane := 0, srcs := [],
                        act := fun _ => Act.reg p.pos (s.at + 1)
                          (.pred f.pd.toNat (g (predSrc s f.pa f.ia) (predSrc s f.pb f.ib))) }) s

/-- A form that only pushes a constant (R112). -/
def runSL (p : Pre) (xd : BitVec 6) (v : W64) (s : State) : State :=
  runSlot p (fun s => { lane := 0, srcs := [], act := fun _ => pushX s xd 1 v }) s

/-- NOP (R112): nothing; its place in the hold state is the bundle's (R56). -/
def execNop (p : Pre) (s : State) : Out :=
  .next (runSlot p (fun _ => { lane := 0, srcs := [], act := fun _ => Act.nothing }) s)

/-- MOV (R112): from xa, or from a loop register as it stands at issue. A lantern has no loop registers, and the
value moved there is open. -/
def execMov (p : Pre) (f : FmtS3) (s : State) : Out :=
  .next (runSlot p (fun s =>
    if f.pc == 0 then
      { lane := 0, srcs := [.x f.xa.toNat f.pa],
        act := fun vs => pushX s f.xd 1 (extend false (opWidth f.sz) (srcN (opWidth f.sz) vs 0)) }
    else
      match s.cur.agent with
      | .core c =>
        { lane := 0, srcs := [],
          act := fun _ => pushX s f.xd 1
            (extend false (opWidth f.sz) ((lookD (s.core c).loops (f.pc.toNat - 8) 0).toNat % 2 ^ opWidth f.sz)) }
      | a =>
        { lane := 0, srcs := [],
          act := fun _ => { fault := none, dsts := [(s.xq a f.xd.toNat, s.at + 1)],
                            commit := fun ids s' => landEntry s'.draw.2 a (s.xq a f.xd.toNat) (ids.headD 0)
                              (toV s'.draw.1) none } }) s)

/-- MOVI (R112). -/
def execMovi (p : Pre) (f : FmtSL) (s : State) : Out := .next (runSL p f.xd (f.imm.signExtend 64) s)
/-- MOVIZ (R112). -/
def execMoviz (p : Pre) (f : FmtSL) (s : State) : Out := .next (runSL p f.xd (f.imm.setWidth 64) s)
/-- MOVIH (R112). -/
def execMovih (p : Pre) (f : FmtSL) (s : State) : Out := .next (runSL p f.xd (f.imm.setWidth 64 <<< 32) s)
/-- SEL (R112): both sources are read whatever the predicate holds. -/
def execSel (p : Pre) (f : FmtS3) (s : State) : Out :=
  .next (runSlot p (fun s =>
    { lane := 0, srcs := [.x f.xa.toNat f.pa, .x f.xb.toNat f.pb],
      act := fun vs =>
        let w := opWidth f.sz
        pushX s f.xd 1 (extend false w
          (if (s.pred s.cur.agent f.pc.toNat).getLsbD 0 then srcN w vs 0 else srcN w vs 1)) }) s)

/-- ADD (R113). -/
def execAdd (p : Pre) (f : FmtS3) (s : State) : Out :=
  .next (runS3 p f 1 true (fun _ a b => (a : Int) + b) s)
/-- SUB (R113). -/
def execSub (p : Pre) (f : FmtS3) (s : State) : Out :=
  .next (runS3 p f 1 true (fun _ a b => (a : Int) - b) s)
/-- MUL (R113). -/
def execMul (p : Pre) (f : FmtS3) (s : State) : Out :=
  .next (runS3 p f 3 true (fun _ a b => (a : Int) * b) s)
/-- MULH (R113). -/
def execMulh (p : Pre) (f : FmtS3) (s : State) : Out :=
  .next (runS3 p f 3 true (fun w a b => asInt true w a * asInt true w b / (2 ^ w : Nat)) s)
/-- MULHN (R113). -/
def execMulhn (p : Pre) (f : FmtS3) (s : State) : Out :=
  .next (runS3 p f 3 false (fun w a b => (a : Int) * b / (2 ^ w : Nat)) s)
/-- DIV (R113, R114). -/
def execDiv (p : Pre) (f : FmtS3) (s : State) : Out :=
  .next (runS3 p f 20 true (fun w a b => divT w (asInt true w a) (asInt true w b)) s)
/-- DIVN (R113, R114). -/
def execDivn (p : Pre) (f : FmtS3) (s : State) : Out :=
  .next (runS3 p f 20 false (fun w a b => divT w a b) s)
/-- REM (R113, R114). -/
def execRem (p : Pre) (f : FmtS3) (s : State) : Out :=
  .next (runS3 p f 20 true (fun w a b => remT (asInt true w a) (asInt true w b)) s)
/-- REMN (R113, R114). -/
def execRemn (p : Pre) (f : FmtS3) (s : State) : Out :=
  .next (runS3 p f 20 false (fun _ a b => remT a b) s)
/-- MIN (R113). -/
def execMin (p : Pre) (f : FmtS3) (s : State) : Out :=
  .next (runS3 p f 1 true (fun w a b => min (asInt true w a) (asInt true w b)) s)
/-- MAX (R113). -/
def execMax (p : Pre) (f : FmtS3) (s : State) : Out :=
  .next (runS3 p f 1 true (fun w a b => max (asInt true w a) (asInt true w b)) s)
/-- MINN (R113). -/
def execMinn (p : Pre) (f : FmtS3) (s : State) : Out :=
  .next (runS3 p f 1 false (fun _ a b => (min a b : Nat)) s)
/-- MAXN (R113). -/
def execMaxn (p : Pre) (f : FmtS3) (s : State) : Out :=
  .next (runS3 p f 1 false (fun _ a b => (max a b : Nat)) s)
/-- AND (R113). -/
def execAnd (p : Pre) (f : FmtS3) (s : State) : Out :=
  .next (runS3 p f 1 false (fun _ a b => (a &&& b : Nat)) s)
/-- OR (R113). -/
def execOr (p : Pre) (f : FmtS3) (s : State) : Out :=
  .next (runS3 p f 1 false (fun _ a b => (a ||| b : Nat)) s)
/-- XOR (R113). -/
def execXor (p : Pre) (f : FmtS3) (s : State) : Out :=
  .next (runS3 p f 1 false (fun _ a b => (a ^^^ b : Nat)) s)
/-- ANDN (R113). -/
def execAndn (p : Pre) (f : FmtS3) (s : State) : Out :=
  .next (runS3 p f 1 false (fun w a b => (a &&& (2 ^ w - 1 - b) : Nat)) s)
/-- SHL (R113). -/
def execShl (p : Pre) (f : FmtS3) (s : State) : Out :=
  .next (runS3 p f 1 false (fun w a b => (a * 2 ^ (b % w) : Nat)) s)
/-- SHR (R113). -/
def execShr (p : Pre) (f : FmtS3) (s : State) : Out :=
  .next (runS3 p f 1 false (fun w a b => (a / 2 ^ (b % w) : Nat)) s)
/-- SAR (R113). -/
def execSar (p : Pre) (f : FmtS3) (s : State) : Out :=
  .next (runS3 p f 1 true (fun w a b => (sarN w a (b % w) : Nat)) s)
/-- ROR (R113). -/
def execRor (p : Pre) (f : FmtS3) (s : State) : Out :=
  .next (runS3 p f 1 false (fun w a b => (rorN w a (b % w) : Nat)) s)
/-- ABS (R113). -/
def execAbs (p : Pre) (f : FmtS3) (s : State) : Out :=
  .next (runS1 p f 1 true (fun w a => ((asInt true w a).natAbs : Nat)) s)
/-- CLZ (R113). -/
def execClz (p : Pre) (f : FmtS3) (s : State) : Out :=
  .next (runS1 p f 1 false (fun w a => (clzN w a : Nat)) s)
/-- CTZ (R113). -/
def execCtz (p : Pre) (f : FmtS3) (s : State) : Out :=
  .next (runS1 p f 1 false (fun w a => (ctzN w a : Nat)) s)
/-- POPC (R113). -/
def execPopc (p : Pre) (f : FmtS3) (s : State) : Out :=
  .next (runS1 p f 1 false (fun w a => (popcN a w : Nat)) s)
/-- ADDI (R115). -/
def execAddi (p : Pre) (f : FmtSI) (s : State) : Out :=
  .next (runSI p f true (fun _ a i => (a : Int) + i) s)
/-- ANDI (R115). -/
def execAndi (p : Pre) (f : FmtSI) (s : State) : Out :=
  .next (runSI p f false (fun _ a i => (a &&& i : Nat)) s)
/-- ORI (R115). -/
def execOri (p : Pre) (f : FmtSI) (s : State) : Out :=
  .next (runSI p f false (fun _ a i => (a ||| i : Nat)) s)
/-- XORI (R115). -/
def execXori (p : Pre) (f : FmtSI) (s : State) : Out :=
  .next (runSI p f false (fun _ a i => (a ^^^ i : Nat)) s)
/-- SHLI (R115). -/
def execShli (p : Pre) (f : FmtSI) (s : State) : Out :=
  .next (runSI p f false (fun w a i => (a * 2 ^ (i % w) : Nat)) s)
/-- SHRI (R115). -/
def execShri (p : Pre) (f : FmtSI) (s : State) : Out :=
  .next (runSI p f false (fun w a i => (a / 2 ^ (i % w) : Nat)) s)
/-- SARI (R115). -/
def execSari (p : Pre) (f : FmtSI) (s : State) : Out :=
  .next (runSI p f true (fun w a i => (sarN w a (i % w) : Nat)) s)
/-- CMPEQ (R116). -/
def execCmpeq (p : Pre) (f : FmtSQ) (s : State) : Out :=
  .next (runSQ p f (fun _ a b => a == b) s)
/-- CMPNE (R116). -/
def execCmpne (p : Pre) (f : FmtSQ) (s : State) : Out :=
  .next (runSQ p f (fun _ a b => a != b) s)
/-- CMPLT (R116). -/
def execCmplt (p : Pre) (f : FmtSQ) (s : State) : Out :=
  .next (runSQ p f (fun w a b => decide (asInt true w a < asInt true w b)) s)
/-- CMPLE (R116). -/
def execCmple (p : Pre) (f : FmtSQ) (s : State) : Out :=
  .next (runSQ p f (fun w a b => decide (asInt true w a ≤ asInt true w b)) s)
/-- CMPLTN (R116). -/
def execCmpltn (p : Pre) (f : FmtSQ) (s : State) : Out :=
  .next (runSQ p f (fun _ a b => decide (a < b)) s)
/-- CMPLEN (R116). -/
def execCmplen (p : Pre) (f : FmtSQ) (s : State) : Out :=
  .next (runSQ p f (fun _ a b => decide (a ≤ b)) s)
/-- PAND (R117). -/
def execPand (p : Pre) (f : FmtSP) (s : State) : Out := .next (runSP p f (fun a b => a &&& b) s)
/-- POR (R117). -/
def execPor (p : Pre) (f : FmtSP) (s : State) : Out := .next (runSP p f (fun a b => a ||| b) s)
/-- PXOR (R117). -/
def execPxor (p : Pre) (f : FmtSP) (s : State) : Out := .next (runSP p f (fun a b => a ^^^ b) s)
/-- PNOT (R117). -/
def execPnot (p : Pre) (f : FmtSP) (s : State) : Out := .next (runSP p f (fun a _ => ~~~a) s)
/-- PSET (R117): a write to p0 is discarded, and the source is still read. -/
def execPset (p : Pre) (f : FmtSP) (s : State) : Out :=
  .next (runSlot p (fun s =>
    { lane := 0, srcs := [.x f.x.toNat f.px],
      act := fun vs => Act.reg p.pos (s.at + 1) (.pred f.pd.toNat (toX (vs.getD 0 0))) }) s)
/-- PGET (R117). -/
def execPget (p : Pre) (f : FmtSP) (s : State) : Out :=
  .next (runSlot p (fun s => { lane := 0, srcs := [], act := fun _ => pushX s f.x 1 (predSrc s f.pa f.ia) }) s)

end Sys2Proof.Machine
end

