-- ==== Sys2Proof/Machine/Vector.lean ====
section
/-! DEFINITION. The vector slot forms of VA and VB (R131 to R151). VRULE stands with the rule unit. -/

namespace Sys2Proof.Machine

/-- A vector result pushed into vd, due L cycles after issue (R134); code 1663 of an E-thread names x63, which takes
bytes [7:0] (R307). -/
def pushV (s : State) (vd : BitVec 11) (L : Nat) (v : V512) : Act :=
  if vd.toNat == 1663 then Act.push s.cur.agent ⟨.x, 63⟩ (s.at + L) (toV (toX v))
  else Act.push s.cur.agent ⟨.v, vd.toNat⟩ (s.at + L) v

/-- A vector form (R132, R134): `mlane` is the lane width that its mask counts, g its result under the mask A. -/
def runV (p : Pre) (vd : BitVec 11) (ops : List VOp) (mlane L : Nat) (g : W64 → List V512 → V512) (s : State) : State :=
  runSlot p (fun s => { lane := mlane, srcs := ops.map .v, act := fun vs => pushV s vd L (g (maskOf p s) vs) }) s

def vec0 (vs : List V512) : V512 := vs.getD 0 0
def vec1 (vs : List V512) : V512 := vs.getD 1 0
def vec2 (vs : List V512) : V512 := vs.getD 2 0

/-- One lane operation on one, two or three sources of the ty lane type. -/
def runV1 (p : Pre) (f : FmtV2) (L : Nat) (g : Nat → Nat) (s : State) : State :=
  runV p f.vd [⟨f.va, f.pa, f.ty⟩] (laneBytes f.ty) L (fun A vs => map1 f.ty A g (vec0 vs)) s
def runV2 (p : Pre) (f : FmtV2) (L : Nat) (g : Nat → Nat → Nat) (s : State) : State :=
  runV p f.vd [⟨f.va, f.pa, f.ty⟩, ⟨f.vb, f.pb, f.ty⟩] (laneBytes f.ty) L
    (fun A vs => map2 f.ty A g (vec0 vs) (vec1 vs)) s
def runV3 (p : Pre) (f : FmtV3) (L : Nat) (g : Nat → Nat → Nat → Nat) (s : State) : State :=
  runV p f.vd [⟨f.va, f.pa, f.ty⟩, ⟨f.vb, false, f.ty⟩, ⟨f.vc, false, f.ty⟩] (laneBytes f.ty) L
    (fun A vs => map3 f.ty A g (vec0 vs) (vec1 vs) (vec2 vs)) s
/-- A shift (R141): the count comes from vb lane by lane, or from aux. -/
def runVShift (p : Pre) (f : FmtV2) (g : Nat → Nat → Nat) (s : State) : State :=
  let w := 8 * laneBytes f.ty
  if f.aux.getLsbD 9 then runV1 p f 2 (fun a => g a (f.aux.toNat % 64)) s
  else runV2 p f 2 (fun a b => g a (b % w)) s
/-- A compare into a predicate (R142). -/
def runVCmp (p : Pre) (f : FmtV2) (r : Rel) (s : State) : State :=
  runSlot p (fun s =>
    { lane := laneBytes f.ty, srcs := [.v ⟨f.va, f.pa, f.ty⟩, .v ⟨f.vb, f.pb, f.ty⟩],
      act := fun vs => Act.reg p.pos (s.at + 2)
        (.pred (f.vd.toNat % 16) (cmpPred r f.ty (maskOf p s) (vec0 vs) (vec1 vs))) }) s
/-- A whole-vector form on the lanes of ty: one and two sources (R147, R151). -/
def runVW1 (p : Pre) (f : FmtV2) (L : Nat) (g : Nat → W64 → V512 → V512) (s : State) : State :=
  runV p f.vd [⟨f.va, f.pa, f.ty⟩] (laneBytes f.ty) L (fun A vs => g (laneBytes f.ty) A (vec0 vs)) s
def runVW2 (p : Pre) (f : FmtV2) (L : Nat) (g : Nat → W64 → V512 → V512 → V512) (s : State) : State :=
  runV p f.vd [⟨f.va, f.pa, f.ty⟩, ⟨f.vb, f.pb, f.ty⟩] (laneBytes f.ty) L
    (fun A vs => g (laneBytes f.ty) A (vec0 vs) (vec1 vs)) s

/-- The quantisation underflow counter of the executor rises (R39, R302). -/
def countUnder (s : State) (n : Nat) : State :=
  match s.cur.agent with
  | .core c => s.modCore c (fun k => { k with qUnder := k.qUnder + n })
  | a => s.modPair (pairOf a) (fun k => { k with qUnder := k.qUnder + n })

/-- VNOP (R136): reads nothing, reserves nothing. -/
def execVnop (p : Pre) (s : State) : Out :=
  .next (runSlot p (fun _ => { lane := 0, srcs := [], act := fun _ => Act.nothing }) s)
/-- VMOV (R136). -/
def execVmov (p : Pre) (f : FmtV2) (s : State) : Out :=
  .next (runV1 p f 2 (fun a => a) s)
/-- VSEL (R136). -/
def execVsel (p : Pre) (f : FmtV3) (s : State) : Out :=
  .next (runV3 p f 2 (fun a b c => if c == 0 then b else a) s)
/-- VADD (R137, R138). -/
def execVadd (p : Pre) (f : FmtV2) (s : State) : Out :=
  .next (runV2 p f 4 (laneAdd f.ty (rmode f.rm)) s)
/-- VSUB (R137, R138). -/
def execVsub (p : Pre) (f : FmtV2) (s : State) : Out :=
  .next (runV2 p f 4 (laneSub f.ty (rmode f.rm)) s)
/-- VMUL (R137, R138). -/
def execVmul (p : Pre) (f : FmtV2) (s : State) : Out :=
  .next (runV2 p f 4 (laneMul f.ty (rmode f.rm)) s)
/-- VFMA (R137, R138). -/
def execVfma (p : Pre) (f : FmtV3) (s : State) : Out :=
  .next (runV3 p f 4 (laneFma f.ty (rmode f.rm)) s)
/-- VFMS (R137, R138). -/
def execVfms (p : Pre) (f : FmtV3) (s : State) : Out :=
  .next (runV3 p f 4 (laneFms f.ty (rmode f.rm)) s)
/-- VADDS (R137). -/
def execVadds (p : Pre) (f : FmtV2) (s : State) : Out :=
  .next (runV2 p f 2 (fun a b => laneSatOp f.ty (laneInt f.ty a + laneInt f.ty b)) s)
/-- VSUBS (R137). -/
def execVsubs (p : Pre) (f : FmtV2) (s : State) : Out :=
  .next (runV2 p f 2 (fun a b => laneSatOp f.ty (laneInt f.ty a - laneInt f.ty b)) s)
/-- VMULH (R137, R139). -/
def execVmulh (p : Pre) (f : FmtV2) (s : State) : Out :=
  .next (runV2 p f 4 (laneMulh f.ty) s)
/-- VMIN (R140). -/
def execVmin (p : Pre) (f : FmtV2) (s : State) : Out :=
  .next (runV2 p f 2 (laneMin f.ty) s)
/-- VMAX (R140). -/
def execVmax (p : Pre) (f : FmtV2) (s : State) : Out :=
  .next (runV2 p f 2 (laneMax f.ty) s)
/-- VABS (R140). -/
def execVabs (p : Pre) (f : FmtV2) (s : State) : Out :=
  .next (runV1 p f 2 (laneAbs f.ty) s)
/-- VNEG (R140). -/
def execVneg (p : Pre) (f : FmtV2) (s : State) : Out :=
  .next (runV1 p f 2 (laneNeg f.ty) s)
/-- VAND (R141). -/
def execVand (p : Pre) (f : FmtV2) (s : State) : Out :=
  .next (runV2 p f 2 (fun a b => a &&& b) s)
/-- VOR (R141). -/
def execVor (p : Pre) (f : FmtV2) (s : State) : Out :=
  .next (runV2 p f 2 (fun a b => a ||| b) s)
/-- VXOR (R141). -/
def execVxor (p : Pre) (f : FmtV2) (s : State) : Out :=
  .next (runV2 p f 2 (fun a b => a ^^^ b) s)
/-- VANDN (R141). -/
def execVandn (p : Pre) (f : FmtV2) (s : State) : Out :=
  .next (runV2 p f 2 (fun a b => a &&& (2 ^ (8 * laneBytes f.ty) - 1 - b)) s)
/-- VSHL (R141). -/
def execVshl (p : Pre) (f : FmtV2) (s : State) : Out :=
  .next (runVShift p f (fun a k => a * 2 ^ k) s)
/-- VSHR (R141). -/
def execVshr (p : Pre) (f : FmtV2) (s : State) : Out :=
  .next (runVShift p f (fun a k => a / 2 ^ k) s)
/-- VSAR (R141): copies of the top bit enter, whatever the signedness. -/
def execVsar (p : Pre) (f : FmtV2) (s : State) : Out :=
  .next (runVShift p f (fun a k => sarN (8 * laneBytes f.ty) a k) s)
/-- VCMPEQ (R142). -/
def execVcmpeq (p : Pre) (f : FmtV2) (s : State) : Out :=
  .next (runVCmp p f .eq s)
/-- VCMPNE (R142). -/
def execVcmpne (p : Pre) (f : FmtV2) (s : State) : Out :=
  .next (runVCmp p f .ne s)
/-- VCMPLT (R142). -/
def execVcmplt (p : Pre) (f : FmtV2) (s : State) : Out :=
  .next (runVCmp p f .lt s)
/-- VCMPLE (R142). -/
def execVcmple (p : Pre) (f : FmtV2) (s : State) : Out :=
  .next (runVCmp p f .le s)
/-- VCVT (R143): aux holds the target type, the part and the saturation bit; the mask counts target lanes. -/
def execVcvt (p : Pre) (f : FmtV2) (s : State) : Out :=
  let T : BitVec 4 := f.aux.setWidth 4
  .next (runV p f.vd [⟨f.va, f.pa, f.ty⟩] (laneBytes T) 4
    (fun A vs => cvtVec f.ty T (f.aux.getLsbD 7) (f.aux.toNat / 16 % 8) (rmode f.rm) A (vec0 vs)) s)
/-- VQNT (R145): b counts as bytes; the underflow counter rises. -/
def execVqnt (p : Pre) (f : FmtV2) (s : State) : Out :=
  .next (runSlot p (fun s =>
    { lane := 1, srcs := [.v ⟨f.va, f.pa, tyF32⟩, .v ⟨f.vb, f.pb, tyN8⟩],
      act := fun vs =>
        let act := pushV s f.vd 4 (qntVec f.ty (f.aux.toNat % 4) (maskOf p s) (vec0 vs) (vec1 vs))
        { act with commit := fun ids s' =>
            act.commit ids (countUnder s' (qntUnder f.ty (f.aux.toNat % 4) (maskOf p s) (vec0 vs) (vec1 vs))) } }) s)
/-- VBSCALE (R144): the mask counts F32 lanes. -/
def execVbscale (p : Pre) (f : FmtV2) (s : State) : Out :=
  .next (runV p f.vd [⟨f.va, f.pa, tyF32⟩, ⟨f.vb, f.pb, tyF32⟩] 4 4
    (fun A vs => bscaleVec f.ty (f.aux.getLsbD 0) A (vec0 vs) (vec1 vs)) s)
/-- VDQNT (R146): the mask counts F32 lanes. -/
def execVdqnt (p : Pre) (f : FmtV2) (s : State) : Out :=
  .next (runV p f.vd [⟨f.va, f.pa, tyN8⟩, ⟨f.vb, f.pb, tyN8⟩] 4 4
    (fun A vs => dqntVec f.ty (rmode f.rm) (f.aux.toNat % 4) A (vec0 vs) (vec1 vs)) s)
/-- VREDADD (R147). -/
def execVredadd (p : Pre) (f : FmtV2) (s : State) : Out :=
  .next (runVW1 p f 6 (fun _ A a => redVec (laneAdd f.ty (rmode f.rm)) f.ty A a) s)
/-- VREDMAX (R147). -/
def execVredmax (p : Pre) (f : FmtV2) (s : State) : Out :=
  .next (runVW1 p f 6 (fun _ A a => redVec (laneMax f.ty) f.ty A a) s)
/-- VREDMIN (R147). -/
def execVredmin (p : Pre) (f : FmtV2) (s : State) : Out :=
  .next (runVW1 p f 6 (fun _ A a => redVec (laneMin f.ty) f.ty A a) s)
/-- VPOPC (R148). -/
def execVpopc (p : Pre) (f : FmtV2) (s : State) : Out :=
  .next (runV1 p f 2 (fun a => popcN a (8 * laneBytes f.ty)) s)
/-- VCLZ (R148). -/
def execVclz (p : Pre) (f : FmtV2) (s : State) : Out :=
  .next (runV1 p f 2 (fun a => clzN (8 * laneBytes f.ty) a) s)
/-- VEXP2 (R51). -/
def execVexp2 (p : Pre) (f : FmtV2) (s : State) : Out :=
  .next (runV1 p f 12 (fun a => rnd (vexp2F (unpack fmtF32 a)) fmtF32 .rne) s)
/-- VRCP (R49). -/
def execVrcp (p : Pre) (f : FmtV2) (s : State) : Out :=
  .next (runV1 p f 12 (fun a => rnd (vrcpF (unpack fmtF32 a)) fmtF32 .rne) s)
/-- VRSQ (R50). -/
def execVrsq (p : Pre) (f : FmtV2) (s : State) : Out :=
  .next (runV1 p f 12 (fun a => rnd (vrsqF (unpack fmtF32 a)) fmtF32 .rne) s)
/-- VPERM (R151). -/
def execVperm (p : Pre) (f : FmtV2) (s : State) : Out :=
  .next (runVW2 p f 3 permVec s)
/-- VSHUF (R151). -/
def execVshuf (p : Pre) (f : FmtV2) (s : State) : Out :=
  .next (runVW1 p f 3 (fun b A x => shufVec b (f.aux.toNat % 64) A x) s)
/-- VTRN (R151). -/
def execVtrn (p : Pre) (f : FmtV2) (s : State) : Out :=
  .next (runVW2 p f 3 (fun b A x y => trnVec b (f.aux.toNat / 2 % 8) (f.aux.getLsbD 0) A x y) s)
/-- VBCAST (R151). -/
def execVbcast (p : Pre) (f : FmtV2) (s : State) : Out :=
  .next (runVW1 p f 3 (fun b A x => bcastLaneVec b (f.aux.toNat % 64) A x) s)
/-- VLANE (R151). -/
def execVlane (p : Pre) (f : FmtV2) (s : State) : Out :=
  .next (runVW2 p f 3 (fun b A x y => laneVec b (f.aux.toNat % 64) A x y) s)
/-- VROT (R151). -/
def execVrot (p : Pre) (f : FmtV2) (s : State) : Out :=
  .next (runVW2 p f 3 (fun b A x y => rotVec b (f.aux.toNat % 64) A x y) s)
/-- VZIP (R151). -/
def execVzip (p : Pre) (f : FmtV2) (s : State) : Out :=
  .next (runVW2 p f 3 (fun b A x y => zipVec b (f.aux.getLsbD 0) A x y) s)
/-- VUNZIP (R151). -/
def execVunzip (p : Pre) (f : FmtV2) (s : State) : Out :=
  .next (runVW2 p f 3 (fun b A x y => unzipVec b (f.aux.getLsbD 0) A x y) s)

end Sys2Proof.Machine
end

