-- ==== Sys2Proof/Machine/Matrix.lean ====
section
/-! DEFINITION. The MX slot forms of the matrix unit and the steps of its command queue (R153 to R160, R164 to R171). -/

namespace Sys2Proof.Machine

def Core.setMx (k : Core) (m : Matrix) : Core := { k with mx := m }
def State.mx (s : State) (c : Nat) : Matrix := (s.core c).mx
def State.modMx (s : State) (c : Nat) (f : Matrix → Matrix) : State := s.modCore c (fun k => { k with mx := f k.mx })
/-- The VCC of a core, with which its matrix unit runs. -/
def State.vccOf (s : State) (c : Nat) : Nat := (s.core c).seq.vcc
/-- A unit's weight in the present cycle (R174, R370). -/
def addWeight (s : State) (c w : Nat) : State := s.modCore c (fun k => { k with nowW := k.nowW + w })

/-! ## The slot forms -/

/-- A command enters the queue; it starts at the next cycle at the earliest (R157). A command behind another one starts after
that one retires, which is no earlier. -/
def pushMx (s : State) (c : Nat) (m : MCmd) : State :=
  s.modMx c (fun x => { x with queue := x.queue ++ [m], issued := x.issued + 1,
                               freeAt := (if x.queue.isEmpty then max x.freeAt (s.at + 1) else x.freeAt) })

/-- Queueing of a command: a ninth entry is QUEUE_OVERFLOW. -/
def queueMx (s : State) (m : MCmd) : Act :=
  let c := coreOf s.cur.agent
  if 8 ≤ (s.mx c).queue.length then Act.trap qOverflow FRec.none
  else Act.eff (fun s => pushMx s c m)

/-- The canonical routines of R166. -/
def canonical (r : Nat) : Option (List (BitVec 32)) :=
  match r with
  | 0 => some [0x3A900000, 0x41800000, 0x08000000, 0x10000000, 0x18800000, 0x38D00000, 0x50000000, 0x58000000,
               0x48000000, 0x68000000]
  | 1 => some [0x3A900000, 0x20800000, 0x41800000, 0x08000000, 0x10000000, 0x18800000, 0x38D00000, 0x50000000,
               0x58000000, 0x48000000, 0x68000000]
  | 2 => some [0x3A900000, 0x20800000, 0x68000000]
  | _ => none

/-- The code of a routine, none where it is not loaded (R165). -/
def routineCode (x : Matrix) (r : Nat) : Option (List (BitVec 32)) :=
  if r < 64 then canonical r else look x.user r

/-- MNOP (R155). -/
def execMnop (p : Pre) (s : State) : Out :=
  .next (runSlot p (fun _ => { lane := 0, srcs := [], act := fun _ => Act.nothing }) s)

/-- The values of k0 to k7. -/
def kregsOf (k : Core) : List W64 := (List.range 8).map (fun i => lookD k.kregs i 0)

/-- MCALL (R160): ILLEGAL_INDEX where the routine is not loaded; captures k0 to k7. -/
def execMcall (p : Pre) (f : FmtMF) (s : State) : Out :=
  .next (runSlot p (fun s =>
    { lane := 0, srcs := [],
      act := fun _ =>
        let k := s.core (coreOf s.cur.agent)
        if (routineCode k.mx f.routine.toNat).isNone then Act.trap causeIllegalIndex FRec.none
        else queueMx s (.mcall f.routine.toNat f.ra.toNat f.rb.toNat (kregsOf k)) }) s)

/-- MSETK with vs = 0 (R156). -/
def execMsetk (p : Pre) (f : FmtMK) (s : State) : Out :=
  .next (runSlot p (fun s =>
    { lane := 0, srcs := [.x f.xa.toNat f.pa],
      act := fun vs => Act.reg p.pos (s.at + 1) (.kreg f.kj.toNat (toX (vs.getD 0 0))) }) s)

/-- Schedules k_i for each lane of a vector. -/
def scheduleK (s : State) (pos : Pos) (due : Nat) (v : V512) : List Nat → State
  | [] => s
  | i :: l => scheduleK (scheduleNow s pos due (.kreg i (BitVec.ofNat 64 (getLane 8 v i)))) pos due v l

/-- MSETK with vs = 1 (R156). -/
def execMsetkAll (p : Pre) (f : FmtMA) (s : State) : Out :=
  .next (runSlot p (fun s =>
    { lane := 0, srcs := [.v ⟨f.vq, f.pv, 7⟩],
      act := fun vs => Act.eff (fun s' => scheduleK s' p.pos (s.at + 1) (vs.getD 0 0) (List.range 8)) }) s)

/-- MRING (R158). -/
def execMring (p : Pre) (f : FmtMR) (s : State) : Out :=
  .next (runSlot p (fun s =>
    { lane := 0, srcs := [.x f.xa.toNat f.pa],
      act := fun vs => queueMx s (.mring f.ring.toNat (toX (vs.getD 0 0))) }) s)

/-- MADV (R159). -/
def execMadv (p : Pre) (f : FmtMR) (s : State) : Out :=
  .next (runSlot p (fun s =>
    { lane := 0, srcs := [], act := fun _ => queueMx s (.madv f.ring.toNat f.count.toNat) }) s)

/-- The drain word of R167. -/
structure Drain where
  crow : Nat
  nrow : Nat
  sp : Nat
  ncol : Nat
  dest : Nat
  stride : Nat
  deriving DecidableEq, Repr

def drainOf (w : W64) : Drain :=
  let n := w.toNat
  { crow := n % 2 ^ 9, nrow := n / 2 ^ 9 % 2 ^ 10, sp := n / 2 ^ 19 % 8,
    ncol := (match n / 2 ^ 22 % 4 with | 0 => 128 | 1 => 64 | 2 => 32 | _ => 0),
    dest := n / 2 ^ 24 % 2 ^ 24, stride := 64 * (n / 2 ^ 48) }

/-- Bytes of one drained row (R167). -/
def drainRow (fmt : Nat) (d : Drain) : Nat :=
  d.ncol * fmtBytes fmt + (if fmtScaled fmt then (d.ncol + 63) / 64 else 0)

/-- The checks of R167. -/
def drainOk (fmt : Nat) (d : Drain) : Bool :=
  1 ≤ d.nrow && d.crow + d.nrow ≤ 512 && (d.sp == 1 || d.sp == 2 || d.sp == 4) && d.ncol != 0 &&
    d.dest % 64 == 0 && 0 < d.stride && drainRow fmt d ≤ d.stride &&
    d.dest + (d.nrow - 1) * d.stride + drainRow fmt d ≤ spSize d.sp

/-- MDRAIN (R167): the drain word is checked at once. -/
def execMdrain (p : Pre) (f : FmtMD) (s : State) : Out :=
  .next (runSlot p (fun s =>
    { lane := 0, srcs := [.x f.xa.toNat f.pa],
      act := fun vs =>
        let w := toX (vs.getD 0 0)
        if drainOk f.fmt.toNat (drainOf w) then queueMx s (.mdrain f.fmt.toNat f.rm w)
        else Act.trap causeIllegalField FRec.none }) s)

/-- MWAIT (R170): the core waits for the commands queued before it. -/
def execMwait (p : Pre) (s : State) : Out :=
  .next (runSlot p (fun _ =>
    { lane := 0, srcs := [],
      act := fun _ => Act.eff (fun s =>
        startWait s (.mwait (s.mx (coreOf s.cur.agent)).issued)) }) s)

/-! ## The command queue -/

/-- Whether the unit goes on: it holds no fault, its core is not frozen, and its core is not stopping, since a unit whose core
stops starts nothing new (R172, R388). -/
def mxAble (s : State) (c : Nat) : Bool :=
  (s.mx c).fault.isNone && !s.frozen (.core c) &&
    (match (s.core c).mode with | .stop .. => false | .free => false | .loaded => false | _ => true)

/-- Whether the unit may act: it goes on, and its cycle has come. -/
def mxReady (s : State) (c : Nat) : Bool := mxAble s c && (s.mx c).freeAt ≤ s.vccOf c

/-- The command at the head retires (R157). -/
def retireMx (s : State) (c : Nat) : State :=
  s.modMx c (fun x => { x with queue := x.queue.drop 1, retired := x.retired + 1, running := false, mseq := none,
                               drained := 0, freeAt := s.vccOf c + 1 })

/-- A deferred matrix fault stops the unit; the record names the command, its position and a row (R171, R377). -/
def mxFault (s : State) (c : Nat) (cz : BitVec 8) (cmd pos row : Nat) : State :=
  s.modMx c (fun x => { x with fault := some (cz, BitVec.ofNat 64 (cmd + pos * 4 + row * 4096)) })

/-- The same for a fault of a cycle of weight w (R174). -/
def mxFaultIn (s : State) (c : Nat) (cz : BitVec 8) (cmd pos row w : Nat) : State := addWeight (mxFault s c cz cmd pos row) c w

/-- MATRIX_COMMAND_START (R157): the command at the head starts; a drain writes its first row 3 cycles later (R168). -/
def startMx (c : Nat) (s : State) : State :=
  match (s.mx c).queue with
  | [] => s
  | m :: _ =>
    if (s.mx c).running || !mxReady s c then s
    else
      s.modMx c (fun x =>
        { x with running := true,
                 drained := 0,
                 freeAt := (match m with
                            | .mdrain .. => s.vccOf c + 3
                            | _ => s.vccOf c) })

def execMatrixCommandStart (c : Nat) (s : State) : Out := .next (startMx c s)

/-- The ring configuration word of R158. -/
def ringOf (w : W64) : RingConf :=
  let n := w.toNat
  { sp := n % 8, fmt := n / 8 % 8, klen := n / 64 % 128 + 1,
    trows := (if n / 2 ^ 13 % 512 == 0 then 512 else n / 2 ^ 13 % 512), ntile := n / 2 ^ 22 % 1024,
    base := n / 2 ^ 32 % 2 ^ 24 }

/-- The checks of R158. -/
def ringOk (w : W64) : Bool :=
  let r := ringOf w
  (r.sp == 1 || r.sp == 2) && r.fmt ≤ 5 && r.klen ≤ ktOf r.fmt && r.ntile != 0 && r.base % 64 == 0 &&
    w.toNat / 2 ^ 56 == 0 && !(r.sp == 2 && ktOf r.fmt < r.trows) &&
    r.base + r.ntile * tileBytes r.fmt r.trows ≤ spSize r.sp &&
    !(fmtScaled r.fmt && r.klen != 64 && r.klen != 128)

def ringAt (x : Matrix) (n : Nat) : Ring := lookD x.rings n { conf := none, head := 0, tail := 0 }

/-- The tiles that a ring holds, tail − head as n32 (R153). -/
def Ring.held (g : Ring) : Nat := (g.tail + 2 ^ 32 - g.head) % 2 ^ 32

/-- MRING_EXECUTE (R158). -/
def mringRun (c : Nat) (s : State) : State :=
  match (s.mx c).queue with
  | .mring r w :: _ =>
    if !(s.mx c).running || !mxReady s c then s
    else if ringOk w then
      addWeight (retireMx (s.modMx c (fun x =>
        { x with rings := put x.rings r { conf := some (ringOf w), head := 0, tail := 0 } })) c) c 1
    else mxFaultIn s c causeIllegalField 1 0 0 1
  | _ => s
def execMringExecute (c : Nat) (s : State) : Out := .next (mringRun c s)

/-- MADV_EXECUTE (R159): the tail advances unless the ring would hold more than ntile tiles. A ring without a
configuration holds none. -/
def madvRun (c : Nat) (s : State) : State :=
  match (s.mx c).queue with
  | .madv r n :: _ =>
    if !(s.mx c).running || !mxReady s c then s
    else
      let g := ringAt (s.mx c) r
      let cap := match g.conf with | some k => k.ntile | none => 0
      if cap < g.held + n then mxFaultIn s c qOverflow 2 0 0 1
      else
        addWeight (retireMx (s.modMx c (fun x => { x with rings := put x.rings r { g with tail := (g.tail + n) % 2 ^ 32 } })) c) c 1
  | _ => s
def execMadvExecute (c : Nat) (s : State) : Out := .next (madvRun c s)

/-- Whether two rings suit one call (R160). -/
def ringsSuit (a b : Ring) : Bool :=
  match a.conf, b.conf with
  | some x, some y => x.sp == 1 && y.sp == 2 && fmtScaled x.fmt == fmtScaled y.fmt && fmtBytes x.fmt == fmtBytes y.fmt
  | _, _ => false

/-- MCALL_START (R160). -/
def mcallStart (c : Nat) (s : State) : State :=
  match (s.mx c).queue with
  | .mcall r ra rb ks :: _ =>
    if !(s.mx c).running || !mxReady s c || (s.mx c).mseq.isSome then s
    else if ringsSuit (ringAt (s.mx c) ra) (ringAt (s.mx c) rb) then
      s.modMx c (fun x =>
        { x with mseq := some { routine := r, ra := ra, rb := rb, ks := ks, pos := 0, loops := [], acur := 0, ccur := 0,
                                ta := 0, tb := 0, touchA := false, touchB := false, modeA := false, scaleA := 0,
                                modeB := false, scaleB := 0, bank0 := none, bank1 := none, wrEnd := 0 },
                 fetAt := s.vccOf c, loadFrom := 0, loadEnd := 0, rows := none, writes := [] })
    else mxFault s c causeIllegalField 0 0 0
  | _ => s
def execMcallStart (c : Nat) (s : State) : Out := .next (mcallStart c s)

/-- Whether a core stands at a bundle boundary: its next bundle would issue now, or would but for MWAIT. -/
def atBoundary (s : State) (c : Nat) : Bool :=
  let k := s.core c
  k.seq.nextAt ≤ k.seq.vcc && (match k.mode with | .run => true | _ => false) &&
    k.waits.all (fun w => match w with | .mwait _ => true | _ => false)

/-- DEFERRED_MATRIX_FAULT (R171): a precise trap of the bundle that would issue, in the MX slot; a frozen core has no such bundle. -/
def deferredMatrixFault (c : Nat) (s : State) : State :=
  match (s.mx c).fault with
  | none => s
  | some (cz, r0) =>
    if atBoundary s c && !s.frozen (.core c) then takeTrap s (.core c) (oneFault .mx cz { FRec.none with kind := 2, r0 := r0 }) (s.core c).seq.pos
    else s
def execDeferredMatrixFault (c : Nat) (s : State) : Out := .next (deferredMatrixFault c s)

end Sys2Proof.Machine
end

