-- ==== Sys2Proof/Machine/Micro.lean ====
section
/-! DEFINITION. The matrix microinstructions (R161 to R164). Each meaning acts on the core of the turn at hand; it does
nothing while its cycle has not come. A UMAC and a UZACC act row by row from the cycle of their turn on. -/

namespace Sys2Proof.Machine

/-- The captured parameter that k names, zero where ks is clear (R161). -/
def kval (m : MSeq) (k : BitVec 3) (ks : Bool) : Nat := if ks then (m.ks.getD k.toNat 0).toNat else 0

/-- A cursor value under wrap to i16. -/
def wrap16 (v : Int) : Int := asInt true 16 (wrapN v 16)

def setMseq (s : State) (c : Nat) (m : MSeq) : State := s.modMx c (fun x => { x with mseq := some m })

/-- Goes on: the microsequencer takes m, the next microinstruction may issue after the present cycle. -/
def microNext (s : State) (c : Nat) (m : MSeq) : State :=
  s.modMx c (fun x => { x with mseq := some m, freeAt := s.vccOf c + 1, fetAt := s.vccOf c + 1 })

/-- Runs a one-cycle microinstruction when its cycle has come (R161); `g` gives the sequencer after it. -/
def microStep (c : Nat) (g : MSeq → MSeq) (s : State) : State :=
  match (s.mx c).mseq with
  | none => s
  | some m => if mxReady s c then addWeight (microNext s c (g { m with pos := m.pos + 1 })) c 1 else s

/-- UNOP (R162). -/
def execUnop (s : State) : Out := .next (microStep (coreOf s.cur.agent) (fun m => m) s)
/-- UFETA (R162). -/
def execUfeta (k : BitVec 3) (ks : Bool) (off : BitVec 9) (s : State) : Out :=
  .next (microStep (coreOf s.cur.agent) (fun m => { m with acur := wrap16 (off.toNat + kval m k ks) }) s)
/-- USCA (R162). -/
def execUsca (mode : Bool) (sc : BitVec 8) (s : State) : Out :=
  .next (microStep (coreOf s.cur.agent) (fun m => { m with modeA := mode, scaleA := sc }) s)
/-- USCB (R162). -/
def execUscb (mode : Bool) (sc : BitVec 8) (s : State) : Out :=
  .next (microStep (coreOf s.cur.agent) (fun m => { m with modeB := mode, scaleB := sc }) s)
/-- USTEP (R162). -/
def execUstep (k : BitVec 3) (ks neg w : Bool) (d : BitVec 16) (s : State) : Out :=
  .next (microStep (coreOf s.cur.agent) (fun m =>
    let dv : Int := d.toInt + (if neg then -(kval m k ks : Int) else (kval m k ks : Int))
    if w then { m with ccur := wrap16 (m.ccur + dv) } else { m with acur := wrap16 (m.acur + dv) }) s)
/-- UPOPA (R162). -/
def execUpopa (s : State) : Out :=
  .next (microStep (coreOf s.cur.agent) (fun m => { m with ta := m.ta + 1, acur := 0, touchA := false }) s)
/-- UPOPB (R162). -/
def execUpopb (s : State) : Out :=
  .next (microStep (coreOf s.cur.agent) (fun m => { m with tb := m.tb + 1, touchB := false }) s)
/-- UENDL (R162): one count less; the body again while a count remains. -/
def execUendl (s : State) : Out :=
  .next (microStep (coreOf s.cur.agent) (fun m =>
    match m.loops with
    | [] => m
    | (b, n) :: l => if n ≤ 1 then { m with loops := l } else { m with loops := (b, n - 1) :: l, pos := b }) s)

/-- The position after the UENDL that closes the loop opened just before `pos`. -/
def afterLoop : List (BitVec 32) → Nat → Nat → Nat
  | [], pos, _ => pos
  | x :: xs, pos, depth =>
    if x.toNat / 2 ^ 27 == 8 then afterLoop xs (pos + 1) (depth + 1)
    else if x.toNat / 2 ^ 27 == 9 then (if depth == 0 then pos + 1 else afterLoop xs (pos + 1) (depth - 1))
    else afterLoop xs (pos + 1) depth

/-- ULOOP (R162): a count of 0 skips the body, one of 2^32 or more is BOUNDS. -/
def uloopRun (c : Nat) (k : BitVec 3) (ks : Bool) (n : BitVec 16) (s : State) : State :=
  match (s.mx c).mseq with
  | none => s
  | some m =>
    if !mxReady s c then s
    else
      let t := n.toNat + kval m k ks
      if 2 ^ 32 ≤ t then mxFaultIn s c cBounds 0 m.pos 0 1
      else if t == 0 then
        addWeight (microNext s c { m with pos := afterLoop (((routineCode (s.mx c) m.routine).getD []).drop (m.pos + 1))
                                                   (m.pos + 1) 0 }) c 1
      else addWeight (microNext s c { m with pos := m.pos + 1, loops := (m.pos + 1, t) :: m.loops }) c 1
def execUloop (k : BitVec 3) (ks : Bool) (n : BitVec 16) (s : State) : Out :=
  .next (uloopRun (coreOf s.cur.agent) k ks n s)

/-- Byte address of tile t of a ring (R158). -/
def tileAt (c : Nat) (r : RingConf) (t : Nat) : Nat :=
  localBase c r.sp + r.base + t % 2 ^ 32 % r.ntile * tileBytes r.fmt r.trows

def bankGet (m : MSeq) (b : Bool) : Option Bank := if b then m.bank1 else m.bank0
def bankPut (m : MSeq) (b : Bool) (v : Bank) : MSeq := if b then { m with bank1 := some v } else { m with bank0 := some v }

/-- The load of a bank whose cycle has come: the tile's bytes as they stand, or ACC_ERROR (R159, R385). The record of an ACC_ERROR
names a CMEM row and a microprogram position (R171), and a B load, whose UFETB has issued, has neither: the model puts 0 and the
position at which the sequencer stands then (DESIGN CHOICE). -/
def loadBank (c : Nat) (b : Bool) (s : State) : State :=
  match (s.mx c).mseq with
  | none => s
  | some m =>
    match bankGet m b, (ringAt (s.mx c) m.rb).conf with
    | some bk, some r =>
      if bk.bytes.isSome || (s.mx c).fault.isSome || s.vccOf c < bk.ready then s
      else if s.badUnder (tileAt c r bk.tile) (tileBytes r.fmt r.trows) then
        mxFault (countFound s c [(tileAt c r bk.tile, tileBytes r.fmt r.trows)]) c cAccError 0 m.pos 0
      else
        let q := s.readLater (s.core c).detMode (laterStores (s.core c)) (tileAt c r bk.tile) (tileBytes r.fmt r.trows)
        setMseq q.2 c (bankPut m b { bk with bytes := some q.1 })
    | _, _ => s

/-- A UFETB may issue (R162): its cycle has come, the load path is free, and no UMAC on the same bank has rows still to issue.
It may issue while a UMAC on the other bank still runs, hence its own earliest cycle. -/
def ufetbReady (s : State) (c : Nat) (b : Bool) (m : MSeq) : Bool :=
  let x := s.mx c
  mxAble s c && max x.fetAt x.loadEnd ≤ s.vccOf c && (bankGet m b).all (fun bk => bk.ready ≤ s.vccOf c)

/-- UFETB (R162): the bank is ready one cycle and L_B after issue. -/
def ufetbRun (c : Nat) (b : Bool) (s : State) : State :=
  match (s.mx c).mseq with
  | none => s
  | some m =>
    let x := s.mx c
    if !ufetbReady s c b m then s
    else
      match (ringAt x m.rb).conf with
      | none => mxFaultIn s c cBounds 0 m.pos 0 1
      | some r =>
        let g := ringAt x m.rb
        let t := s.vccOf c
        if g.held ≤ m.tb then mxFaultIn s c qUnderflow 0 m.pos 0 1
        else
          let rdy := t + 1 + (tileBytes r.fmt r.trows + 255) / 256
          let m := { bankPut m b { tile := (g.head + m.tb) % 2 ^ 32, ready := rdy, bytes := none } with pos := m.pos + 1, touchB := true }
          addWeight (s.modMx c (fun x =>
            { x with mseq := some m, freeAt := max x.freeAt (t + 1), fetAt := t + 1, loadFrom := t + 1, loadEnd := rdy })) c 1
def execUfetb (b : Bool) (s : State) : Out := .next (ufetbRun (coreOf s.cur.agent) b s)

/-- CMEM rows [lo, lo + n) lie in 0 to 511. -/
def rowsOk (lo : Int) (n top : Nat) : Bool := 0 ≤ lo && lo + n ≤ top

/-- Element i of a tile row of 128 bytes, and the scale byte of its block. -/
def rowElem (fmt : Nat) (row : List Byte) (i : Nat) : Nat :=
  let v := ofBytes ((row.drop (i * fmtBytes fmt)).take (fmtBytes fmt))
  if fmt == 4 then v % 64 else v
def rowScale (fmt : Nat) (tile : List Byte) (trows row blk : Nat) : Nat :=
  if fmtScaled fmt then ((tile.getD (trows * 128 + 2 * row + blk) 0).toNat) else 127

/-- One word of C after one UMAC row (R163). -/
def macWord (m : MSeq) (ra rb : RingConf) (arow brow : List Byte) (sas sbs : List Nat) (C : Nat) : Nat :=
  let kl := min ra.klen rb.klen
  let xs := (List.range kl).map (fun i => (rowElem ra.fmt arow i, rowElem rb.fmt brow i))
  let C := unpack fmtF32 C
  if fmtScaled ra.fmt then
    let sa := sas.map (fun x => if m.modeA then m.scaleA.toNat else x)
    let sb := sbs.map (fun x => if m.modeB then m.scaleB.toNat else x)
    rnd (scaledMac ra.fmt rb.fmt (sa.zip sb) (piecesOf 64 2 xs) C) fmtF32 .rne
  else rnd (plainMac ra.fmt rb.fmt xs C) fmtF32 .rne

/-- Word j of CMEM row crow as a UMAC reads it: the last value formed for it and not yet written, or the word as it stands; none
where it is uncorrectable (R162, R169). -/
def accWord (s : State) (c crow j : Nat) : Option Nat :=
  match (s.mx c).writes.reverse.find? (fun w => w.crow == crow && j < w.words.length) with
  | some w => w.words.getD j none
  | none => if s.badUnder (cmemAt c crow j) 4 then none else some (s.mem.num (cmemAt c crow j) 4)

/-- The words that one row of a UMAC forms from a row of A and its scales (R163): an uncorrectable word of C has no value. -/
def macWords (s : State) (c : Nat) (m : MSeq) (ra rb : RingConf) (ar : List Byte) (sas : List Nat) (crow : Nat) (bt : List Byte) :
    List (Option Nat) :=
  (List.range rb.trows).map (fun j =>
    (accWord s c crow j).map (macWord m ra rb ar ((bt.drop (j * 128)).take 128) sas
      [rowScale rb.fmt bt rb.trows j 0, rowScale rb.fmt bt rb.trows j 1]))

/-- What a row of an A tile reads: its data and, where it is scaled, its scales. -/
def rowPlaces (r : RingConf) (base row : Nat) : List (Nat × Nat) :=
  (base + row * 128, 128) :: (if fmtScaled r.fmt then [(base + r.trows * 128 + 2 * row, 2)] else [])

/-- A row of an A tile with its scales as the cycle's read finds them (R159); a ring without scales has those of 1. -/
def readRow (s : State) (c : Nat) (r : RingConf) (base row : Nat) : List Byte × List Nat × State :=
  let ws := laterStores (s.core c)
  let d := s.readLater (s.core c).detMode ws (base + row * 128) 128
  if fmtScaled r.fmt then
    let q := d.2.readLater (s.core c).detMode ws (base + r.trows * 128 + 2 * row) 2
    (d.1, q.1.map BitVec.toNat, q.2)
  else (d.1, [127, 127], d.2)

/-- The weight of a UMAC row-cycle by format (R174). -/
def umacWeight (fmt : Nat) : Nat :=
  match fmt with | 3 => 60 | 4 => 52 | 5 => 56 | 0 => 32 | _ => 40

/-- The next row of a UMAC, which processes row i at its first cycle plus i and writes it 6 cycles later (R162). Where the A
tile cannot be read, the record names the CMEM row of that row: the spec does not say which (DESIGN CHOICE). -/
def macStep (c : Nat) (m : MSeq) (r : MRows) (s : State) : State :=
  let x := s.mx c
  match (bankGet m r.bank).bind (·.bytes), (ringAt x m.ra).conf, (ringAt x m.rb).conf with
  | some bt, some ra, some rb =>
    let base := tileAt c ra ((ringAt x m.ra).head + m.ta)
    let arow := r.arow + r.done
    let crow := r.crow + r.done
    if (rowPlaces ra base arow).any (fun y => s.badUnder y.1 y.2) then
      mxFaultIn (countFound s c (rowPlaces ra base arow)) c cAccError 0 r.pos crow (umacWeight ra.fmt)
    else
      let q := readRow s c ra base arow
      q.2.2.modMx c (fun x =>
        { x with rows := some { r with done := r.done + 1 },
                 writes := x.writes ++ [{ due := s.vccOf c + 6, crow := crow, words := macWords s c m ra rb q.1 q.2.1 crow bt }] })
  | _, _, _ => s

/-- The next row of a UZACC: zeros, whatever an earlier UMAC has still to write there. -/
def zeroStep (c : Nat) (r : MRows) (s : State) : State :=
  let lo := cmemAt c (r.crow + r.done) 0
  { s with mem := s.mem.clear lo (lo + 512), bad := s.bad.filter (fun u => u < lo || lo + 512 ≤ u) }.modMx c
    (fun x => { x with rows := some { r with done := r.done + 1 }, writes := x.writes.filter (fun w => w.crow != r.crow + r.done) })

/-- The row of the present cycle of the UMAC or UZACC under way; after its last cycle it is over. -/
def rowStep (c : Nat) (s : State) : State :=
  match (s.mx c).mseq, (s.mx c).rows with
  | some m, some r =>
    if r.count ≤ r.done then (if r.from_ + r.count ≤ s.vccOf c then s.modMx c (fun x => { x with rows := none }) else s)
    else if (s.mx c).fault.isSome || s.vccOf c < r.from_ + r.done then s
    else if r.mac then macStep c m r s
    else zeroStep c r s
  | _, _ => s

/-- One word of a row is written: with fresh check bits, or marked uncorrectable (R169). -/
def writeWord (a : Nat) (s : State) (v : Option Nat) : State :=
  match v with
  | some v => { s with mem := s.mem.write a (toBytes v 4), bad := s.bad.filter (· != a) }
  | none => if s.bad.contains a then s else { s with bad := a :: s.bad }

/-- The rows that UMACs have formed are written when due. -/
def performRows (c : Nat) (s : State) : State :=
  let due := (s.mx c).writes.filter (fun w => w.due ≤ s.vccOf c)
  due.foldl (fun s w => (w.words.zipIdx).foldl (fun s y => writeWord (cmemAt c w.crow y.2) s y.1) s)
    (s.modMx c (fun x => { x with writes := x.writes.filter (fun w => s.vccOf c < w.due) }))

/-- What the unit does at a new cycle beside its microinstructions: B loads that end, rows written, the next row. -/
def tickMx (c : Nat) (s : State) : State := rowStep c (performRows c (loadBank c true (loadBank c false s)))

/-- Whether a total row count and the rows from a first one on are out of their range (R162). -/
def rowsBad (t : Nat) (l : List (Int × Nat)) : Bool := t < 1 || 512 < t || l.any (fun x => !rowsOk x.1 t x.2)

/-- UZACC (R162): one row a cycle from its turn on. -/
def uzaccRun (c : Nat) (k : BitVec 3) (ks : Bool) (n : BitVec 10) (s : State) : State :=
  match (s.mx c).mseq with
  | none => s
  | some m =>
    let t := n.toNat + kval m k ks
    if !mxReady s c then s
    else if rowsBad t [(m.ccur, 512)] then mxFaultIn s c cBounds 0 m.pos 0 1
    else
      let v := s.vccOf c
      rowStep c (s.modMx c (fun x =>
        { x with mseq := some { m with pos := m.pos + 1 }, freeAt := v + t, fetAt := v + t,
                 rows := some { mac := false, from_ := v, count := t, done := 0, pos := m.pos, bank := false, arow := 0,
                                crow := m.ccur.toNat } }))
def execUzacc (k : BitVec 3) (ks : Bool) (n : BitVec 10) (s : State) : Out :=
  .next (uzaccRun (coreOf s.cur.agent) k ks n s)

/-- Whether a UMAC of t rows is BOUNDS when its turn comes (R162): an invalid bank, or rows out of range. An A tile that its ring
does not hold is found later, when the first row is read; where both apply the spec does not say which is raised, and BOUNDS
is (DESIGN CHOICE). -/
def umacBad (x : Matrix) (m : MSeq) (b : Bool) (t : Nat) : Bool :=
  match bankGet m b, (ringAt x m.ra).conf with
  | some _, some ra => rowsBad t [(m.ccur, 512), (m.acur, ra.trows)]
  | _, _ => true

/-- The bank of a UMAC is ready, and its tile has been read. -/
def bankReady (s : State) (c : Nat) (m : MSeq) (b : Bool) : Bool :=
  (bankGet m b).any (fun bk => bk.ready ≤ s.vccOf c && bk.bytes.isSome)

/-- UMAC (R162, R163): it waits for its bank, then processes one row a cycle; the tail of its A ring counts in its first. -/
def umacRun (c : Nat) (k : BitVec 3) (ks : Bool) (n : BitVec 10) (b : Bool) (s : State) : State :=
  match (s.mx c).mseq with
  | none => s
  | some m =>
    let t := n.toNat + kval m k ks
    if !mxReady s c then s
    else
      match umacBad (s.mx c) m b t, bankGet m b with
      | true, _ => mxFaultIn s c cBounds 0 m.pos 0 1
      | false, none => s
      | false, some bk =>
        let g := ringAt (s.mx c) m.ra
        if !bankReady s c m b then s
        else if g.held ≤ m.ta then mxFaultIn s c qUnderflow 0 m.pos 0 (umacWeight ((g.conf.map (·.fmt)).getD 0))
        else
          let u := s.vccOf c
          let m' := { bankPut m b { bk with ready := u + t } with
                      pos := m.pos + 1, acur := wrap16 (m.acur + t), ccur := wrap16 (m.ccur + t), touchA := true,
                      wrEnd := u + t - 1 + 6 }
          rowStep c (s.modMx c (fun x =>
            { x with mseq := some m', freeAt := u + t, fetAt := u + 1,
                     rows := some { mac := true, from_ := u, count := t, done := 0, pos := m.pos, bank := b,
                                    arow := m.acur.toNat, crow := m.ccur.toNat } }))
def execUmac (k : BitVec 3) (ks : Bool) (n : BitVec 10) (b : Bool) (s : State) : Out :=
  .next (umacRun (coreOf s.cur.agent) k ks n b s)

/-- Whether a USYNC or URET may issue: no B load runs and every UMAC write is performed (R162). -/
def syncReady (s : State) (c : Nat) (m : MSeq) : Bool :=
  mxReady s c && (s.mx c).loadEnd ≤ s.vccOf c && (m.wrEnd == 0 || m.wrEnd < s.vccOf c)

/-- USYNC (R162). -/
def execUsync (s : State) : Out :=
  let c := coreOf s.cur.agent
  .next (match (s.mx c).mseq with
    | none => s
    | some m => if syncReady s c m then microStep c (fun m => m) s else s)

def advHead (g : Ring) (n : Nat) (touched : Bool) : Ring := { g with head := (g.head + n + (if touched then 1 else 0)) % 2 ^ 32 }

/-- URET (R164): the heads advance and the call retires. -/
def uretRun (c : Nat) (s : State) : State :=
  match (s.mx c).mseq with
  | none => s
  | some m =>
    if syncReady s c m then
      let s := s.modMx c (fun x =>
        { x with rings := put (put x.rings m.ra (advHead (ringAt x m.ra) m.ta m.touchA)) m.rb
                            (advHead (ringAt x m.rb) m.tb m.touchB) })
      addWeight (retireMx s c) c 1
    else s
def execUret (s : State) : Out := .next (uretRun (coreOf s.cur.agent) s)

/-- Whether the microinstruction at hand would act in this cycle. -/
def microFires (s : State) (c : Nat) (i : Instr) (m : MSeq) : Bool :=
  match i with
  | .umac k ks n b =>
    mxReady s c && (umacBad (s.mx c) m b (n.toNat + kval m k ks) || bankReady s c m b)
  | .ufetb b => ufetbReady s c b m
  | .usync => syncReady s c m
  | .uret => syncReady s c m
  | _ => mxReady s c

/-- Nothing of the unit is under way: no rows, no row to write, no B load. -/
def mxQuiet (s : State) (c : Nat) : Bool :=
  let x := s.mx c
  x.rows.all (fun r => r.count ≤ r.done) && x.writes.isEmpty && x.loadEnd ≤ s.vccOf c

/-- The microinstruction at the microsequencer's position. -/
def microAt (x : Matrix) : Option Instr :=
  match x.mseq with
  | none => none
  | some m =>
    match ((routineCode x m.routine).getD [])[m.pos]? with
    | some w => decodeMicro w.toNat
    | none => none

end Sys2Proof.Machine
end

