-- ==== Sys2Proof/Machine/Tables.lean ====
section
/-! DEFINITION. The page table and its walk (R332, R333), memory by virtual address, the notification queue (R343,
R344), interrupts (R400) and monitors (R374, R375). -/

namespace Sys2Proof.Machine

/-! ## The page table -/

/-- Dome bytes that a dome answers (R193). -/
def State.capOf (s : State) (d : Nat) : Nat := (s.dome d).lcap * 2 ^ 25

/-- A leaf found by a walk. -/
structure Leaf where
  pa : Nat
  large : Bool
  read : Bool
  write : Bool
  moving : Bool
  deriving DecidableEq, Repr

def pageSize (large : Bool) : Nat := if large then 2 ^ 25 else 2 ^ 16

/-- The entry at one level: where each table stands is the firmware's choice; entries are keyed by address (R332). -/
def pteIdx (lvl va : Nat) : Nat :=
  match lvl with
  | 0 => va / 2 ^ 45 % 2048
  | 1 => va / 2 ^ 34 % 2048
  | 2 => va / 2 ^ 25 % 512
  | _ => va / 2 ^ 16 % 512
def State.pte (s : State) (table lvl va : Nat) : W64 := lookD s.ptes (table + 8 * pteIdx lvl va) 0

def pteValid (w : W64) : Bool := w.getLsbD 0
def pteLeaf (w : W64) : Bool := w.getLsbD 1
def pteAddr (w : W64) : Nat := w.toNat / 2 ^ 12 % 2 ^ 40 * 2 ^ 12
/-- Reserved bits are zero (R333). -/
def pteClean (w : W64) : Bool := w.toNat / 32 % 128 == 0 && w.toNat / 2 ^ 52 == 0

/-- A physical page that a leaf may map: its class, and a dome page below L (R333). -/
def State.pageOk (s : State) (pa : Nat) (large : Bool) : Bool :=
  pa % pageSize large == 0 &&
    (match paClass pa with
     | 0 => pa / 2 ^ 37 < 128 && pa % 2 ^ 37 + pageSize large ≤ s.capOf (domeOf pa)
     | 8 => clmOf pa < 1024
     | 12 => true
     | 14 => true
     | _ => false)

def leafOf (s : State) (w : W64) (large : Bool) : Option Leaf :=
  if s.pageOk (pteAddr w) large then
    some { pa := pteAddr w, large := large, read := w.getLsbD 2, write := w.getLsbD 3, moving := w.getLsbD 4 }
  else none

/-- The walk of a virtual address: the leaf that maps it, or none where an entry is absent or breaks R333. A table of level 1
holds 2,048 entries, one of level 2 or 3 holds 512: a pointer is aligned to its table. -/
def State.walk (s : State) (va : Nat) : Option Leaf :=
  let e0 := s.pte 0 0 va
  if !(pteValid e0 && pteClean e0) || pteLeaf e0 then none
  else
    let e1 := s.pte (pteAddr e0) 1 va
    if pteAddr e0 % 16384 != 0 || !(pteValid e1 && pteClean e1) || pteLeaf e1 then none
    else
      let e2 := s.pte (pteAddr e1) 2 va
      if !(pteValid e2 && pteClean e2) then none
      else if pteLeaf e2 then leafOf s e2 true
      else
        let e3 := s.pte (pteAddr e2) 3 va
        if !(pteValid e3 && pteClean e3) || !pteLeaf e3 then none else leafOf s e3 false

/-- The physical address of a virtual byte, with its leaf. -/
def State.translate (s : State) (va : Nat) : Option (Nat × Leaf) :=
  (s.walk va).map (fun l => (l.pa + va % pageSize l.large, l))

/-- The 256-byte block of dome memory under an address is poisoned (R198). -/
def State.poisoned (s : State) (pa : Nat) : Bool := s.poison.contains (pa / 256 * 256)

def blockOf (pa : Nat) : Nat := pa % 2 ^ 37 / 256

/-- A donated or ballooned block (R202). -/
def State.donatedAt (s : State) (pa : Nat) : Bool :=
  paClass pa == 0 &&
    (match look (s.dome (domeOf pa)).blocks (blockOf pa) with
     | some b => b.donated || b.ballooned
     | none => false)

/-- Addresses a, a + step, … below a + n. -/
def stepsOf (a n step : Nat) : List Nat := (List.range ((a % step + n + step - 1) / step)).map (fun i => a / step * step + i * step)

/-- The bytes at a virtual address as the firmware reads them, none where a byte is unmapped, not readable, poisoned or
answered by an error (R314). Every piece of 64 bytes lies in one page. -/
def State.readVa (s : State) (va : Nat) : Nat → Option (List Byte)
  | 0 => some []
  | n + 1 =>
    match s.translate va with
    | none => none
    | some (pa, l) =>
      if !l.read || s.poisoned pa || s.donatedAt pa then none
      else (State.readVa s (va + 1) n).map (fun r => s.mem.get pa :: r)

/-! ## Notifications (R343, R344) -/

structure NoteHdr where
  pa : Nat
  ring : Nat
  nslots : Nat
  wr : Nat
  rd : Nat
  thr : Nat
  port : Nat
  thread : Nat
  deriving DecidableEq, Repr

def State.noteHdr (s : State) : Option NoteHdr :=
  if s.fw.nqhdr == 0 then none
  else
    (s.translate s.fw.nqhdr).map (fun t =>
      let num := fun o n => s.mem.num (t.1 + o) n
      { pa := t.1, ring := num 0 8, nslots := num 8 4, wr := num 12 4, rd := num 16 4, thr := num 20 2,
        port := num 22 1 % 4, thread := num 24 4 })

def used32 (wr rd : Nat) : Nat := (wr + 2 ^ 32 - rd) % 2 ^ 32

/-- Whether a record posted now finds room behind those that wait. -/
def State.noteRoom (s : State) : Bool :=
  match s.noteHdr with
  | some q => used32 q.wr q.rd + s.notes.length < q.nslots
  | none => false

/-- An event waits for its record; a dome's event that finds no room counts as delayed (R206, R342). -/
def postNote (s : State) (n : Note) : State := { s with notes := s.notes ++ [n] }
def postDomeNote (s : State) (d : Nat) (n : Note) : State :=
  let room := s.noteRoom
  let s := postNote s n
  if room then s else s.modDome d (fun k => { k with noteDly := k.noteDly + 1 })

/-- An interrupt message on a port (R400). -/
def postIrq (s : State) (port : Nat) (w : W64) : State := { s with irqs := s.irqs ++ [(port, w)] }

/-! ## Monitors -/

def bumpAt : List Nat → Nat → List Nat
  | [], _ => []
  | x :: xs, 0 => (if x < 65535 then x + 1 else x) :: xs
  | x :: xs, n + 1 => x :: bumpAt xs n

/-- The bin of a sample (R375). -/
def monBin (k v : Nat) : Nat := if v < 2 ^ k then 0 else min 15 (Nat.log2 (v / 2 ^ k) + 1)

/-- One sample taken by a monitor in a cycle; one in the cycle of a write to MONCTL is dropped (R374). -/
def Monitor.sample (m : Monitor) (now v : Nat) : Monitor :=
  if m.wrote == some now then { m with took := some now }
  else { m with
    took := some now,
    cnt := (m.cnt + 1) % 2 ^ 64,
    min := if v < m.min.toNat then BitVec.ofNat 64 v else m.min,
    max := if m.max.toNat < v then BitVec.ofNat 64 v else m.max,
    hist := bumpAt (if m.hist.isEmpty then List.replicate 16 0 else m.hist) (monBin (m.ctl.toNat / 2 ^ 16 % 32) v),
    last := BitVec.ofNat 64 v }

def Monitor.on (m : Monitor) : Bool := m.ctl.getLsbD 0
def Monitor.source (m : Monitor) : Nat := m.ctl.toNat / 2 % 64
def Monitor.agent (m : Monitor) : Nat := m.ctl.toNat / 2 ^ 8 % 64

/-- Every monitor of a spire, or of a dome, that watches a source of an agent takes a sample (R375). -/
def sampleSpire (s : State) (c src v : Nat) : State :=
  { s with spireMon := s.spireMon.map (fun x =>
      if x.1 / 8 == c / 64 && x.2.on && x.2.source == src && x.2.agent == c % 64 then (x.1, x.2.sample s.now v) else x) }
def sampleDome (s : State) (d src v : Nat) : State :=
  { s with domeMon := s.domeMon.map (fun x =>
      if x.1 / 8 == d && x.2.on && x.2.source == src then (x.1, x.2.sample s.now v) else x) }

/-- Each activation alert is offered to the monitors of its dome (R209, R375). R209 gives the index of the agent: for a copy engine
and for the home atomic unit the model takes the number of the core that it acts for, and of every index it keeps the low 8 bits
that MONALERT has room for (DESIGN CHOICE). -/
def alertMonitors (s : State) (d bank kind idx : Nat) : State :=
  { s with domeMon := s.domeMon.map (fun x =>
      if x.1 / 8 == d && x.2.on && x.2.source == 20 && x.2.wrote != some s.now then
        (x.1, { x.2.sample s.now bank with
                alert := BitVec.ofNat 64 (bank / 16 + bank % 16 * 2 ^ 6 + kind * 2 ^ 10 + idx % 256 * 2 ^ 16) })
      else x) }

end Sys2Proof.Machine
end

