-- ==== Sys2Proof/Machine/Home.lean ====
section
/-! DEFINITION. Homes: the coding of a dome block (R195 to R198), units and the pool (R199 to R206), activations (R208),
access counters (R342), and the reads and writes that every agent makes at a home. -/

namespace Sys2Proof.Machine

/-! ## Coding a block -/

/-- Whether a 32-bit word is an n-bit value sign-extended. -/
def isSext (n w : Nat) : Bool := w < 2 ^ (n - 1) || (2 ^ 32 - 2 ^ (n - 1) ≤ w && w < 2 ^ 32)
def halfOk (h : Nat) : Bool := h < 128 || (65408 ≤ h && h < 65536)
def isRep (w : Nat) : Bool := w == w % 256 * 0x01010101

/-- The code of a nonzero word: prefix, payload, payload width (R195, R196). -/
def wordCode (w : Nat) : Nat × Nat × Nat :=
  if isSext 4 w then (1, w % 16, 4)
  else if isSext 8 w then (2, w % 256, 8)
  else if isRep w then (6, w % 256, 8)
  else if isSext 16 w then (3, w % 65536, 16)
  else if w % 65536 == 0 then (4, w / 65536, 16)
  else if halfOk (w / 65536) && halfOk (w % 65536) then (5, w / 65536 % 256 * 256 + w % 256, 16)
  else (7, w, 32)

/-- The codes of a list of words; `run` zero words stand open before it (R196). -/
def codeWords : Nat → List Nat → List (Nat × Nat × Nat)
  | run, [] => if run == 0 then [] else [(0, run - 1, 3)]
  | run, w :: ws =>
    if w == 0 then (if run == 7 then (0, 7, 3) :: codeWords 0 ws else codeWords (run + 1) ws)
    else (if run == 0 then [] else [(0, run - 1, 3)]) ++ wordCode w :: codeWords 0 ws

/-- The stream of a list of codes as a number, bit 0 first, and its length (R197). -/
def codeStream : List (Nat × Nat × Nat) → Nat
  | [] => 0
  | (p, v, m) :: cs => p + v * 8 + 2 ^ (m + 3) * codeStream cs
def codeBits : List (Nat × Nat × Nat) → Nat
  | [] => 0
  | (_, _, m) :: cs => m + 3 + codeBits cs

def sextTo32 (n v : Nat) : Nat := if v < 2 ^ (n - 1) then v else v + 2 ^ 32 - 2 ^ n

/-- Reading reverses the coding (R198): the words of a stream, from `left` words still to come; none where it does not
decode to exactly that many or holds a bit after its last code. -/
def decodeStream : Nat → Nat → Nat → Option (List Nat)
  | 0, n, _ => if n == 0 then some [] else none
  | fuel + 1, n, left =>
    if left == 0 then (if n == 0 then some [] else none)
    else
      let v := n / 8
      match n % 8 with
      | 0 =>
        let k := v % 8 + 1
        if left < k then none else (decodeStream fuel (v / 8) (left - k)).map (fun r => List.replicate k 0 ++ r)
      | 1 => (decodeStream fuel (v / 16) (left - 1)).map (fun r => sextTo32 4 (v % 16) :: r)
      | 2 => (decodeStream fuel (v / 256) (left - 1)).map (fun r => sextTo32 8 (v % 256) :: r)
      | 3 => (decodeStream fuel (v / 65536) (left - 1)).map (fun r => sextTo32 16 (v % 65536) :: r)
      | 4 => (decodeStream fuel (v / 65536) (left - 1)).map (fun r => v % 65536 * 65536 :: r)
      | 5 => (decodeStream fuel (v / 65536) (left - 1)).map (fun r =>
          (sextTo32 8 (v / 256 % 256) % 65536 * 65536 + sextTo32 8 (v % 256) % 65536) :: r)
      | 6 => (decodeStream fuel (v / 256) (left - 1)).map (fun r => v % 256 * 0x01010101 :: r)
      | _ => (decodeStream fuel (v / 2 ^ 32) (left - 1)).map (fun r => v % 2 ^ 32 :: r)

/-- Sectors of a block by its words (R198). -/
def sectorsOf (ws : List Nat) : Nat :=
  if ws.all (· == 0) then 0
  else
    let B := codeBits (codeWords 0 ws)
    if B ≤ 1792 then (B + 255) / 256 else 8

def blockWords (m : Memory) (pa : Nat) : List Nat := (List.range 64).map (fun i => m.num (pa + 4 * i) 4)

/-! ## Units and the pool -/

/-- The record of a block: a block that nothing has written is the zero block of the format (R194). -/
def Dome.block (k : Dome) (b : Nat) : BlockRec :=
  lookD k.blocks b { s := 0, donated := false, ballooned := false, home := k.lcap * 2 ^ 15 + b, ovf := [] }

def ovfNeed (s : Nat) : Nat := (s + 1) / 2 - 1

/-- First unit of the overflow pool and the units free at format (R194). -/
def poolStart (lcap : Nat) : Nat := (5 * (lcap * 2 ^ 25) / 16 + 2 ^ 28) / 64
def poolUnits (lcap : Nat) : Nat := (1907 * 2 ^ 25 - 5 * (lcap * 2 ^ 25) / 16 - 2 ^ 28) / 64

/-- Draws units, last returned first out (R200). -/
def drawUnits : Nat → Dome → List Nat × Dome
  | 0, k => ([], k)
  | n + 1, k =>
    match k.freed with
    | u :: us =>
      let r := drawUnits n { k with freed := us, poolFree := k.poolFree - 1 }
      (u :: r.1, r.2)
    | [] =>
      let r := drawUnits n { k with nextUnit := k.nextUnit + 1, poolFree := k.poolFree - 1 }
      (k.nextUnit :: r.1, r.2)

def returnUnits (us : List Nat) (k : Dome) : Dome :=
  { k with freed := us ++ k.freed, poolFree := k.poolFree + us.length }

/-- A block takes its new sector count: units are drawn or returned, ovf3 first, and the counters follow (R200, R211). -/
def recodeBlock (k : Dome) (b s' : Nat) : Dome :=
  let r := k.block b
  let u := r.ovf.length
  let u' := ovfNeed s'
  let k := { k with sectors := k.sectors + s' - r.s,
                    rawWr := k.rawWr + (if s' == 8 then 1 else 0),
                    zeroWr := k.zeroWr + (if s' == 0 then 1 else 0) }
  if u < u' then
    let d := drawUnits (u' - u) k
    { d.2 with blocks := put d.2.blocks b { r with s := s', ovf := r.ovf ++ d.1 }, expands := k.expands + 1 }
  else if u' < u then
    let k := returnUnits (r.ovf.drop u') k
    { k with blocks := put k.blocks b { r with s := s', ovf := r.ovf.take u' }, shrinks := k.shrinks + 1 }
  else { k with blocks := put k.blocks b { r with s := s' } }

/-- Whether the low-water mark is crossed: POOL_LOW once until the pool has risen again (R206). -/
def poolCheck (s : State) (d : Nat) : State :=
  let k := s.dome d
  if k.poolFree < k.poolLow && k.lowArmed then
    let room := s.noteRoom
    let s := postDomeNote s d { code := 0x10, source := 0, index := d, w0 := BitVec.ofNat 64 k.poolFree,
                                w1 := BitVec.ofNat 64 k.balloon.length }
    s.modDome d (fun k => { k with lowArmed := false, pendLow := !room })
  else if k.poolLow + 4096 ≤ k.poolFree && !k.lowArmed then s.modDome d (fun k => { k with lowArmed := true })
  else s

/-! ## Activations and access counters -/

/-- Counts one activation of a block's bank; at 96 the alert is raised and the bank blocked (R208, R209). -/
def activate (s : State) (pa kind idx : Nat) : State :=
  let d := domeOf pa
  let k := s.dome d
  let bank := Config.bankOf d (blockOf pa) % 1024
  let n := lookD k.acts bank 0 + 1
  let s := s.modDome d (fun k => { k with acts := put k.acts bank n })
  if n == 96 then
    alertMonitors (s.modDome d (fun k => { k with alerts := k.alerts + 1, blocked := (bank, s.now) :: k.blocked })) d bank kind idx
  else s

/-- Whether an alert of an earlier cycle blocks the bank of a block (R208; log 17). -/
def bankBlocked (s : State) (pa : Nat) : Bool :=
  (s.dome (domeOf pa)).blocked.any (fun x => x.1 == Config.bankOf (domeOf pa) (blockOf pa) % 1024 && x.2 < s.now)

/-- A counted access to a page from a site that is not the dome's own spire (R342). -/
def countAccess (s : State) (pa spire : Nat) : State :=
  let d := domeOf pa
  let thr := match s.noteHdr with | some q => q.thr | none => 0
  if paClass pa != 0 || spire == d || thr == 0 then s
  else
    let pg := pa % 2 ^ 37 / 65536
    let c := lookD (s.dome d).counts pg { count := 0, queued := false, pending := false }
    let n := if c.count < thr then c.count + 1 else c.count
    if n == thr && !c.queued then
      let room := s.noteRoom
      let s := postDomeNote s d { code := 0x20, source := 0, index := d, w0 := BitVec.ofNat 64 (pa / 65536 * 65536), w1 := 0 }
      s.modDome d (fun k => { k with counts := put k.counts pg { count := n, queued := true, pending := !room } })
    else s.modDome d (fun k => { k with counts := put k.counts pg { c with count := n } })

/-- Who an access is made for: to the counters a kind and an index (R374), and the issuing spire where accesses count; to the
order of its home the cycle in which it arrived, none for the present one, its place among agents that arrive together, where it
is a request, and the write it is part of, if it is one. -/
structure Who where
  kind : Nat
  idx : Nat
  spire : Option Nat
  came : Option Nat := none
  rank : Option Nat := none
  own : Option Writer := none
  deriving DecidableEq, Repr

/-- The order of agents that arrive together: cores by id, then the others by their numbers (R200, R356). -/
def srcOrder : Source → Nat
  | .core c => c
  | .lantern p => 100000 + p
  | .peer k => 200000 + k
  | .host => 250000
  | .command q _ => 300000 + q
/-- The same for an agent whose access is a turn of its own: a copy engine stands with its core. -/
def Who.order (w : Who) : Nat :=
  match w.rank, w.kind with
  | some n, _ => n
  | none, 0 => w.idx
  | none, 1 => 100000 + w.idx
  | none, 2 => w.idx
  | none, 3 => 150000 + w.idx
  | none, _ => 250000 + w.idx

/-- The requests that have arrived at a home and come before an access to the same block: earlier arrivals, and those of the
same cycle from agents before it (R27, R200). -/
def arrivedOver (s : State) (w : Who) (pa n : Nat) : Bool :=
  s.reqs.any (fun y =>
    pa / 256 * 256 < y.pa + y.size && y.pa / 256 * 256 < pa + n &&
      (match y.came with
       | some t => t < w.came.getD s.now || (t == w.came.getD s.now && srcOrder y.src < w.order)
       | none => false))

/-! ## Watches (R231, R357) -/

/-- An access is performed at a dome: its monitors sample the cycles since it arrived (R375). -/
def sampleAccess (s : State) (pa : Nat) (came : Option Nat) : State :=
  if paClass pa == 0 then sampleDome s (domeOf pa) 16 (s.now - came.getD s.now) else s

/-- Whether a condition of WAITV is met on a W-bit word. -/
def condMet (cond : Nat) (w a v : Nat) : Bool :=
  match cond with
  | 0 => a == v
  | 1 => a != v
  | 2 => asInt true w a < asInt true w v
  | 3 => asInt true w v ≤ asInt true w a
  | 4 => a < v
  | _ => v ≤ a

def State.watchesAt (s : State) (pa : Nat) : List Watch :=
  match paClass pa with
  | 0 => (s.dome (domeOf pa)).watches
  | 8 => (s.cluster (clmOf pa)).watches
  | 14 => (s.cluster (1024 + peerSlot pa)).watches
  | _ => (s.cluster 2048).watches
def State.setWatches (s : State) (pa : Nat) (l : List Watch) : State :=
  match paClass pa with
  | 0 => s.modDome (domeOf pa) (fun k => { k with watches := l })
  | 8 => s.setCluster (clmOf pa) { s.cluster (clmOf pa) with watches := l }
  | 14 => s.setCluster (1024 + peerSlot pa) { s.cluster (1024 + peerSlot pa) with watches := l }
  | _ => s.setCluster 2048 { s.cluster 2048 with watches := l }

def waitMet (m : Memory) (x : Access) : Bool :=
  match x.kind with
  | .waitv cond wide =>
    let w := if wide then 64 else 32
    condMet cond w (m.num x.pa (w / 8)) (x.data.toNat % 2 ^ w)
  | _ => false

/-- The cycle at which a WAITV of a deterministic launch resumes (R357); `stamp` is that of a write of its group. -/
def resumeCycle (s : State) (x : Access) (stamp : Option Nat) : Nat :=
  match x.src with
  | .core c =>
    if (s.core c).detMode then
      let issue := x.stamp - 4 - x.path
      max (issue + 2 * x.path + 128)
        (match stamp with | some a => a + x.path + 124 | none => (s.core c).seq.vcc + x.path + 4)
    else 0
  | _ => 0

def replyOf (x : Access) (data : V512) (poison : Bool) (resumeAt : Nat) : Reply :=
  { acc := x, data := data, poison := poison, abandoned := false, retry := false, resumeAt := resumeAt }

/-- The stamp of a write, where it is made by an access of a waiting core's own group. -/
def stampFor (s : State) (x : Access) (w : Option Access) : Option Nat :=
  match w, x.src with
  | some y, .core c =>
    (match y.src with
     | .core d => if s.groupOf (.core d) == s.groupOf (.core c) then some y.stamp else none
     | .lantern p => if (s.pair p).detMode && (s.pair p).launch == (s.core c).launch then some y.stamp else none
     | _ => none)
  | _, _ => none

/-- Every watch over written bytes is evaluated again; those met are performed and answered (R231, R375). -/
def fireWatches (s : State) (pa n : Nat) (w : Option Access) : State :=
  let hit := fun h : Watch => h.acc.pa < pa + n && pa < h.acc.pa + h.acc.size && waitMet s.mem h.acc
  let ws := s.watchesAt pa
  if !ws.any hit then s
  else
    let s1 := s.setWatches pa (ws.filter (fun h => !hit h))
    let s' := (ws.filter hit).foldl (fun s h =>
      match h.acc.src with
      | .core c => (sampleAccess s h.acc.pa h.acc.came).modCore c (fun k => { k with out := k.out.filter (fun y => y.id != h.acc.id) })
      | _ => sampleAccess s h.acc.pa h.acc.came) s1
    { s' with reps := s'.reps ++ (ws.filter hit).map (fun h => replyOf h.acc 0 false (resumeCycle s h.acc (stampFor s h.acc w))) }

/-! ## Reads and writes at a home -/

/-- What a home answers: done with the new state, wait and try again, or an error response. -/
inductive HomeRes where
  | ok (s : State)
  | wait (s : State)
  | err (s : State)

/-- What a read at a home answers: bytes and whether one of them is poisoned. -/
inductive HomeGot where
  | ok (bs : List Byte) (poison : Bool) (s : State)
  | wait
  | err (s : State)

/-- Whether a link carries accesses of a peer slot. -/
def peerUp (s : State) (pa : Nat) : Bool := lookD s.fw.portUp (peerSlot pa) false

/-- Whether a physical range is one that a home answers. -/
def homeKnown (s : State) (pa n : Nat) : Bool :=
  match paClass pa with
  | 0 => pa / 2 ^ 37 < 128 && pa % 2 ^ 37 + n ≤ s.capOf (domeOf pa)
  | 8 => (pa - 0x8000000000000) + n ≤ 1024 * 2 ^ 22
  | 12 => true
  | 14 => peerUp s pa
  | _ => false

/-- The rows of a range are activated, and an access that counts is counted (R208, R342). -/
def activated (s : State) (pa n : Nat) (w : Who) : State :=
  (stepsOf pa n 256).foldl (fun s b =>
    let s := activate s b w.kind w.idx
    match w.spire with | some sp => countAccess s b sp | none => s) s

/-- The access that a dome performs. -/
def touched (s : State) (pa n : Nat) (w : Who) : State := sampleAccess (activated s pa n w) pa w.came

/-- A donated block in the range counts in BALLOONHIT (R202). -/
def balloonHit (s : State) (pa : Nat) : State := s.modDome (domeOf pa) (fun k => { k with balloonHit := k.balloonHit + 1 })

/-- The writes of a dome that wait for units, in the order in which they are served (R203, R204). -/
def Dome.waiting (k : Dome) : List HeldWrite := k.held ++ k.want

/-- Whether an access arrived at a dome before a write that waits there for units. -/
def Who.before (w : Who) (now : Nat) (h : HeldWrite) : Bool :=
  let t := w.came.getD now
  t < h.came || (t == h.came && w.order < h.order)

/-- Whether a write that waits for units, and arrived before this access, stands over a block of the range (R200, R204). -/
def heldOver (s : State) (w : Who) (who : Option Writer) (pa n : Nat) : Bool :=
  ((s.dome (domeOf pa)).waiting.takeWhile (fun h => some h.who != who)).any
    (fun h => h.addr / 256 * 256 < pa + n && pa < (h.addr + h.size + 255) / 256 * 256 && !w.before s.now h)

/-- A write that waits at a dome keeps the cycle of its arrival (R200). -/
def keepsArrival (k : Dome) (who : Writer) (w : Who) : Who :=
  match k.waiting.find? (fun h => h.who == who) with
  | some h => { w with came := some h.came }
  | none => w

/-- The controller logs the errors of poisoned blocks with their logical addresses (R198). -/
def logErrors (s : State) (bs : List Nat) : State :=
  (bs.filter s.poisoned).foldl (fun s b => s.modDome (domeOf b) (fun k => { k with errors := k.errors ++ [b] })) s

/-- What a refused read of bytes leaves at their domes: a donated block counts, a poisoned one is logged (R198, R202). -/
def noteBad (s : State) (pa : Nat) : State :=
  if paClass pa != 0 then s
  else if s.donatedAt pa then balloonHit s pa
  else logErrors s [pa / 256 * 256]
def noteBads (s : State) (pas : List Nat) : State := ((pas.map (fun a => a / 256 * 256)).eraseDups).foldl noteBad s

/-- A read of n bytes at a home that may not perform its access yet: a WAITV's evaluation (R198, R202, R231). -/
def homeLook (s : State) (w : Who) (pa n : Nat) : HomeGot :=
  if !homeKnown s pa n then .err s
  else if paClass pa == 0 then
    (if (stepsOf pa n 256).any s.donatedAt then .err (balloonHit s pa)
     else if (stepsOf pa n 256).any (bankBlocked s) || heldOver s w w.own pa n || arrivedOver s w pa n then .wait
     else .ok (s.mem.read pa n) ((stepsOf pa n 256).any s.poisoned) (logErrors (activated s pa n w) (stepsOf pa n 256)))
  else if arrivedOver s w pa n then .wait
  else .ok (s.mem.read pa n) (s.badUnder pa n) s

/-- A read of n bytes at a home (R188, R375). -/
def homeRead (s : State) (w : Who) (pa n : Nat) : HomeGot :=
  match homeLook s w pa n with
  | .ok bs po s' => .ok bs po (sampleAccess s' pa w.came)
  | .wait => .wait
  | .err s' => .err s'

/-- Units that a write over a range needs beyond those its blocks hold. -/
def unitsNeeded (k : Dome) (m' : Memory) : List Nat → Nat
  | [] => 0
  | b :: bs => (ovfNeed (sectorsOf (blockWords m' b)) - (k.block (blockOf b)).ovf.length) + unitsNeeded k m' bs

/-- The records of the blocks of a performed write. -/
def recodeAll (m' : Memory) : List Nat → Dome → Dome
  | [], k => k
  | b :: bs, k => recodeAll m' bs (recodeBlock k (blockOf b) (sectorsOf (blockWords m' b)))

/-- A write finds the pool short (R203, R204): it waits for a take, joins the held list, or waits before it. -/
def poolShort (s : State) (w : Who) (who : Writer) (pa n need : Nat) : HomeRes :=
  let d := domeOf pa
  let k := s.dome d
  let w := keepsArrival k who w
  let h : HeldWrite := { who := who, addr := pa, size := n, since := s.now, need := need, came := w.came.getD s.now, order := w.order }
  if k.held.any (fun h => h.who == who) then .wait s
  else if !k.balloon.isEmpty then
    .wait (if k.want.any (fun h => h.who == who) then s else s.modDome d (fun k => { k with want := k.want ++ [h] }))
  else if 64 ≤ k.held.length then .wait s
  else
    let s1 := s.modDome d (fun k =>
      { k with held := k.held ++ [h], want := k.want.filter (fun h => h.who != who), exhausts := k.exhausts + 1 })
    if k.held.isEmpty then
      let room := s1.noteRoom
      let s2 := postDomeNote s1 d { code := 0x11, source := 0, index := d, w0 := BitVec.ofNat 64 k.poolFree,
                                    w1 := BitVec.ofNat 64 pa }
      .wait (s2.modDome d (fun k => { k with pendExh := if room then k.pendExh else some pa }))
    else .wait s1

/-- The access that makes a write, where one does. -/
def writerAccess (s : State) : Writer → Option Access
  | .access id => s.reqs.find? (fun x => x.id == id)
  | _ => none

/-- A write is performed no more once it has been held for 800,000 cycles (R205). -/
def heldTooLong (s : State) (k : Dome) (who : Writer) : Bool :=
  k.held.any (fun h => h.who == who && h.since + 800000 ≤ s.now)

/-- A write of pieces within n bytes from pa on at one dome. One over part of a poisoned block writes nothing; one that is a
block write replaces it (R198, R385, R396). Each block takes its new sectors once (R211). -/
def domeWrite (s : State) (w : Who) (who : Writer) (pa n : Nat) (ps : List (Nat × List Byte)) (block : Bool) : HomeRes :=
  let d := domeOf pa
  let blks := stepsOf pa n 256
  let k := s.dome d
  let w := keepsArrival k who w
  if blks.any s.donatedAt then .err (balloonHit s pa)
  else if blks.any (bankBlocked s) || heldOver s w (some who) pa n || arrivedOver s w pa n || heldTooLong s k who then .wait s
  else if blks.any s.poisoned && !block then .err (logErrors (touched s pa n w) blks)
  else
    let m' := ps.foldl (fun m p => m.write p.1 p.2) s.mem
    let need := unitsNeeded k m' blks
    let first := match k.waiting with | [] => true | h :: _ => h.who == who
    if 0 < need && (k.poolFree < need || !first) then poolShort s w who pa n need
    else
      let s1 := touched s pa n w
      let other := fun l : List HeldWrite => l.filter (fun h => h.who != who)
      let s2 := { s1.modDome d (fun k => recodeAll m' blks { k with held := other k.held, want := other k.want }) with
                  mem := m', poison := s1.poison.filter (fun b => !blks.contains b) }
      .ok (poolCheck (ps.foldl (fun s p => fireWatches s p.1 p.2.length (writerAccess s1 who)) s2) d)

/-- A write of bytes at a home. A CLM write into an uncorrectable unit that it does not cover writes nothing (R182). -/
def homeWrite (s : State) (w : Who) (who : Writer) (pa : Nat) (bs : List Byte) (block : Bool) : HomeRes :=
  let n := bs.length
  if !homeKnown s pa n then .err s
  else if paClass pa == 0 then domeWrite s w who pa n [(pa, bs)] block
  else if arrivedOver s w pa n then .wait s
  else if paClass pa == 8 then .ok (fireWatches (s.localWrite pa bs) pa n (writerAccess s who))
  else .ok (fireWatches { s with mem := s.mem.write pa bs } pa n (writerAccess s who))

/-- Formats a dome: every block is the zero block, every pool unit free (R194, R211). -/
def formatDome (lcap : Nat) (k : Dome) : Dome :=
  { Dome.fresh with lcap := lcap, formatted := true, nextUnit := poolStart lcap, poolFree := poolUnits lcap,
                    poolLow := k.poolLow }

/-! ## Refresh, recalls -/

/-- Starts a recall of each page among a dome's leases that has none under way (R340). -/
def recallLeases (d : Nat) (ls : List Lease) (s : State) : State :=
  ls.foldl (fun s l =>
    if s.recalls.any (fun r => r.page == l.page) then s
    else { s with recalls := s.recalls ++
      [{ page := l.page, large := l.large,
         holders := ((s.dome d).leases.filter (fun x => x.page == l.page)).map (·.cluster) }] }) s

/-- A full lease table gives up one lease: it alone is recalled (R339). -/
def evictLease (l : Lease) (s : State) : State :=
  if s.recalls.any (fun r => r.page == l.page) then s
  else { s with recalls := s.recalls ++ [{ page := l.page, large := l.large, holders := [l.cluster] }] }

/-- REFRESH_MANAGEMENT (R208). -/
def refreshManagement (d b : Nat) (s : State) : State :=
  let k := s.dome d
  let n := lookD k.acts b 0
  if n < 32 then s
  else s.setDome d { k with acts := put k.acts b (n - 32), rfms := k.rfms + 1, blocked := k.blocked.filter (·.1 != b) }
def execRefreshManagement (d b : Nat) (s : State) : Host.Outcome State Fault Refusal := .next (refreshManagement d b s)

end Sys2Proof.Machine
end

