-- ==== Sys2Proof/Machine/Local.lean ====
section
/-! DEFINITION. Local loads and stores, the spill space and its forwarding table (R179 to R187, R305). -/

namespace Sys2Proof.Machine

/-- Access size and signedness of a memory sz code (R66). -/
def szBytes (sz : BitVec 3) : Nat :=
  match sz.toNat with
  | 0 => 1 | 1 => 2 | 2 => 4 | 3 => 8 | 4 => 1 | 5 => 2 | 6 => 4 | _ => 64
def szSigned (sz : BitVec 3) : Bool := 4 ≤ sz.toNat && sz.toNat ≤ 6

/-- A loaded value as a queue takes it: 64 bytes whole, a scalar extended (R183). -/
def loadExt (sz : BitVec 3) (raw : Nat) : V512 :=
  if sz == 7 then BitVec.ofNat 512 raw
  else toV (extend (szSigned sz) (8 * szBytes sz) raw)

/-- The queue that the reg field of a channel form names: vectors with sz 7, scalars otherwise. -/
def regQueue (s : State) (reg : BitVec 11) (sz : BitVec 3) : QName :=
  if sz == 7 then ⟨.v, reg.toNat⟩ else s.xq s.cur.agent (reg.toNat % 64)

/-- The source that a store takes its data from; there is no peek (R183, R188). -/
def regSrc (reg : BitVec 11) (sz : BitVec 3) : Src := if sz == 7 then .v ⟨reg, false, 7⟩ else .x (reg.toNat % 64) false

/-- First byte, size and exposed latency of a local space (R179, R305). -/
def spaceOf (a : Agent) (sp : BitVec 3) : Nat × Nat × Nat :=
  match a with
  | .core c => (localBase c sp.toNat, spSize sp.toNat, spLat sp.toNat)
  | x => (lanternBase (pairOf x), 65536, 2)

/-- The address sources of a CL form, and its address (R183). -/
def clSrcs (f : FmtCL) : List Src := if f.nx then [] else [.x f.xa.toNat f.pa]
def clAddr (f : FmtCL) (vs : List V512) : Nat :=
  (if f.nx then 0 else (toX (vs.getD 0 0)).toNat) + f.off.toNat * szBytes f.sz
/-- The store data among the sources a CL store has read. -/
def clData (f : FmtCL) (vs : List V512) : V512 := vs.getD (if f.nx then 0 else 1) 0

/-- BOUNDS before ALIGN (R184). -/
def rangeFault (size a n : Nat) : Option (BitVec 8) :=
  if size < a + n then some cBounds else if a % n != 0 then some cAlign else none

/-- What a local load of an agent reads at issue (R180). A row of CMEM that the core's matrix unit has formed and not written is not
ordered with the load (R170). -/
def loadBytes (s : State) (a n : Nat) : List Byte × State :=
  match s.cur.agent with
  | .core c => s.readLater (s.core c).detMode (laterRows c (s.core c)) a n
  | _ => (s.mem.read a n, s)

/-- A local load (R180, R183): reads the memory at issue, lands after L_X. -/
def loadLocal (p : Pre) (f : FmtCL) (s : State) : State :=
  runSlot p (fun s =>
    { lane := 0, srcs := clSrcs f,
      act := fun vs =>
        let sp := spaceOf s.cur.agent f.sp
        let a := clAddr f vs
        let n := szBytes f.sz
        match rangeFault sp.2.1 a n with
        | some cz => Act.trap cz FRec.none
        | none =>
          if s.badUnder (sp.1 + a) n then Act.trap cAccError (frecFound s [(sp.1 + a, n)])
          else
            { fault := none, dsts := [(regQueue s f.reg f.sz, s.at + sp.2.2)],
              commit := fun ids s =>
                let r := loadBytes s (sp.1 + a) n
                landEntry r.2 s.cur.agent (regQueue s f.reg f.sz) (ids.headD 0) (loadExt f.sz (ofBytes r.1)) none },
      outs := [regQueue s f.reg f.sz] }) s

/-- A store waits for its performing cycle. -/
def addStore (s : State) (x : LocalSt) : State :=
  let s := s.modSeq s.cur.agent (fun k => { k with stores := k.stores ++ [x] })
  match s.cur.agent with
  | .core c => s.modCore c (fun k => { k with storeBy := max k.storeBy x.due })
  | _ => s

/-- A local store (R180, R183): performed L_X cycles after issue. -/
def storeLocal (p : Pre) (f : FmtCL) (s : State) : State :=
  runSlot p (fun s =>
    { lane := 0, srcs := clSrcs f ++ [regSrc f.reg f.sz],
      act := fun vs =>
        let sp := spaceOf s.cur.agent f.sp
        let a := clAddr f vs
        let n := szBytes f.sz
        match rangeFault sp.2.1 a n with
        | some cz => Act.trap cz FRec.none
        | none =>
          Act.eff (fun s => addStore s { due := s.at + sp.2.2, addr := sp.1 + a,
                                         bytes := toBytes (clData f vs).toNat n, ser := s.serial }) }) s

/-- LDS (R183). -/
def execLds (p : Pre) (f : FmtCL) (s : State) : Out := .next (loadLocal p f s)
/-- STS (R183). -/
def execSts (p : Pre) (f : FmtCL) (s : State) : Out := .next (storeLocal p f s)
/-- LDVS (R183). -/
def execLdvs (p : Pre) (f : FmtCL) (s : State) : Out := .next (loadLocal p f s)
/-- STVS (R183). -/
def execStvs (p : Pre) (f : FmtCL) (s : State) : Out := .next (storeLocal p f s)

/-- CNOP (R75). -/
def execCnop (p : Pre) (s : State) : Out :=
  .next (runSlot p (fun _ => { lane := 0, srcs := [], act := fun _ => Act.nothing }) s)

/-! ## The spill space -/

/-- The part of the spill space that a whole range lies in (R185): 0 FMEM, 1 carve-out, 2 overflow. -/
def spillPart (S o n : Nat) : Option Nat :=
  if o + n ≤ 4096 then some 0
  else if 4096 ≤ o && o + n ≤ 4096 + S then some 1
  else if 4096 + S ≤ o && o + n ≤ 4096 + S + 2 ^ 24 then some 2
  else none

def spillFault (S o n : Nat) : Option (BitVec 8) :=
  if (spillPart S o n).isNone then some cBounds else if o % n != 0 then some cAlign else none

/-- Where the bytes at a spill offset stand: a scratchpad byte, or the overflow page that dispatch has translated. -/
def spillAddr (c : Nat) (k : Core) (o : Nat) : Nat :=
  if o < 4096 then localBase c 0 + o
  else if o < 4096 + k.spillSize then localBase c 1 + k.spillBase + (o - 4096)
  else
    let va := k.spillOvf + (o - 4096 - k.spillSize)
    lookD k.ovfPages (va / 65536) 0 + va % 65536

def spillLat (part : Nat) : Nat := match part with | 0 => 1 | 1 => 3 | _ => 256

/-- The byte a FILL takes at one offset: from the youngest forwarding entry that covers it, else from storage (R186). -/
def fwdByte (fw : List Fwd) (o : Nat) (d : Byte) : Byte :=
  fw.foldl (fun b e => if e.off ≤ o && o < e.off + e.bytes.length then e.bytes.getD (o - e.off) 0 else b) d

def isFwd (fw : List Fwd) (o : Nat) : Bool := fw.any (fun e => e.off ≤ o && o < e.off + e.bytes.length)

/-- The bytes of a FILL that its forwarding table holds, by their place in the result (R186). -/
def fwdBytes (fw : List Fwd) (o n : Nat) : List (Nat × Byte) :=
  ((List.range n).filter (fun i => isFwd fw (o + i))).map (fun i => (i, fwdByte fw (o + i) 0))

/-- Bytes with those given put in their places. -/
def overlay (l : List (Nat × Byte)) (bs : List Byte) : List Byte := (bs.zipIdx).map (fun x => lookD l x.2 x.1)

/-- A FILL of FMEM or the carve-out (R186, R187): it reads the storage at issue, but for the bytes that the forwarding table
holds; an uncorrectable unit under a byte that no entry forwards is ACC_ERROR. -/
def fillLocal (s : State) (f : FmtCL) (o : Nat) (part : Nat) : Act :=
  let c := coreOf s.cur.agent
  let k := s.core c
  let n := szBytes f.sz
  let read := (List.range n).filter (fun i => !isFwd k.fwd (o + i))
  if read.any (fun i => s.badUnder (spillAddr c k (o + i)) 1) then
    Act.trap cAccError (frecFound s (read.map (fun i => (spillAddr c k (o + i), 1))))
  else
    Act.push s.cur.agent (regQueue s f.reg f.sz) (s.at + spillLat part)
      (loadExt f.sz (ofBytes (overlay (fwdBytes k.fwd o n) (s.mem.read (spillAddr c k o) n))))

end Sys2Proof.Machine
end

