-- ==== Sys2Proof/Machine/Offcore.lean ====
section
/-! DEFINITION. Handle accesses (R188 to R192, R219, R220, R227 to R231, R338), MARK and FENCE, overflow SPILL, the two
queues (R214 to R221, R380, R381), and the landing of replies (R101, R385). -/

namespace Sys2Proof.Machine

/-! ## Addresses and faults -/

/-- Reach of a scope from a core (R217). -/
def inReach (scope c pa : Nat) : Bool :=
  if 2 ^ 60 ≤ pa then true
  else if paClass pa == 8 then
    (if scope == 1 then clmOf pa == c / 8 else if scope == 2 then clmOf pa / 8 == c / 64 else 3 ≤ scope)
  else if paClass pa == 0 then 3 ≤ scope
  else 4 ≤ scope

def chSrcs (f : FmtCH) : List Src := if f.nx then [] else [.x f.xo.toNat f.po]
/-- The offset of a CH form within its page (R188). -/
def chOffset (f : FmtCH) (vs : List V512) : Int :=
  (if f.nx then 0 else (toX (vs.getD 0 0)).toInt) + f.disp.toInt * (szBytes f.sz : Int)
def chData (f : FmtCH) (vs : List V512) : V512 := vs.getD (if f.nx then 0 else 1) 0

/-- The record of an access fault (R377 kind 1). -/
def frecAccess (pos : Pos) (va pa : Nat) (perm write : Bool) : FRec :=
  { FRec.none with kind := 1, slot := pos,
                   r0 := BitVec.ofNat 64 (va % 2 ^ 56 + (if perm then 2 ^ 56 else 0) + (if write then 2 ^ 57 else 0)),
                   r1 := BitVec.ofNat 64 pa }

/-- The record of an access through an invalid handle, which keeps the handle's page (R336). -/
def frecInvalid (pos : Pos) (h : Handle) (va : Nat) (wr : Bool) : FRec :=
  { frecAccess pos va 0 false wr with page := some (h.va / pageSize h.large, h.large) }

/-- The checks of an access through a handle, in order (R189, R230, R338); the fault is none where it may go on. -/
def handleFault (pos : Pos) (h : Handle) (off : Int) (n : Nat) (noHost rd wr : Bool) : Option (BitVec 8 × FRec) :=
  let va := (h.va + off).toNat
  let pa := (h.pa + off).toNat
  if !h.valid then some (h.cause, frecInvalid pos h va wr)
  else if noHost && paClass h.pa == 12 then some (cHandleFault, frecAccess pos va pa false wr)
  else if off < 0 || (pageSize h.large : Int) < off + n then some (cBounds, frecAccess pos va pa false wr)
  else if off % n != 0 then some (cAlign, frecAccess pos va pa false wr)
  else if (rd && !h.read) || (wr && !h.write) then some (0x0F, frecAccess pos va pa true wr)
  else none

/-- A lantern's own-dome address (R305): BOUNDS for an offset at or beyond L, then ALIGN. L is a multiple of every size, so an
aligned access below it does not pass it. -/
def lanternFault (s : State) (p : Nat) (off : Int) (n : Nat) : Option (BitVec 8 × FRec) :=
  if off < 0 || (s.capOf (p / 64) : Int) ≤ off then some (cBounds, FRec.none)
  else if off % n != 0 then some (cAlign, FRec.none)
  else none

/-- The physical address of a CH access, or its fault. -/
def chTarget (s : State) (pos : Pos) (f : FmtCH) (vs : List V512) (n : Nat) (noHost rd wr : Bool) :
    Except (BitVec 8 × FRec) Nat :=
  let off := chOffset f vs
  match s.cur.agent with
  | .core c =>
    let h := (s.core c).handle f.h.toNat
    match handleFault pos h off n noHost rd wr with
    | some x => .error x
    | none => .ok (h.pa + off.toNat)
  | a =>
    match lanternFault s (pairOf a) off n with
    | some x => .error x
    | none => .ok (pairOf a / 64 * 2 ^ 37 + off.toNat)

/-! ## The queues -/

def queueCap (a : Agent) : Nat := match a with | .core _ => 64 | _ => 16
def State.ldqOf (s : State) (a : Agent) : List Access :=
  match a with | .core c => (s.core c).ldq | x => (s.pair (pairOf x)).ldq
def State.stqOf (s : State) (a : Agent) : List Access :=
  match a with | .core c => (s.core c).stq | x => (s.pair (pairOf x)).stq
def State.outOf (s : State) (a : Agent) : List Access :=
  match a with | .core c => (s.core c).out | x => (s.pair (pairOf x)).out
def State.ordsOf (s : State) (a : Agent) : List Ord :=
  match a with | .core c => (s.core c).ords | x => (s.pair (pairOf x)).ords
def State.gatedOf (s : State) (a : Agent) : List Access :=
  match a with | .core c => (s.core c).gated | _ => []
def State.setLdq (s : State) (a : Agent) (l : List Access) : State :=
  match a with
  | .core c => s.modCore c (fun k => { k with ldq := l })
  | x => s.modPair (pairOf x) (fun k => { k with ldq := l })
def State.setStq (s : State) (a : Agent) (l : List Access) : State :=
  match a with
  | .core c => s.modCore c (fun k => { k with stq := l })
  | x => s.modPair (pairOf x) (fun k => { k with stq := l })
def State.setOut (s : State) (a : Agent) (l : List Access) : State :=
  match a with
  | .core c => s.modCore c (fun k => { k with out := l })
  | x => s.modPair (pairOf x) (fun k => { k with out := l })
def State.setOrds (s : State) (a : Agent) (l : List Ord) : State :=
  match a with
  | .core c => s.modCore c (fun k => { k with ords := l })
  | x => s.modPair (pairOf x) (fun k => { k with ords := l })

/-- Places of the shared tables: 0 gated stores, 1 forwarding entries, 2 load queue, 3 store queue. -/
def roomLd (s : State) : Bool := (s.ldqOf s.cur.agent).length + s.taken 2 < queueCap s.cur.agent
def roomSt (s : State) : Bool := (s.stqOf s.cur.agent).length + s.taken 3 < queueCap s.cur.agent

/-- Off-core stores of the bundle at hand go to the gated store buffer: a mark has issued, and this is no END (R380). -/
def gating (s : State) : Bool :=
  match s.cur.agent with
  | .core c => (s.core c).snap.isSome && !s.cur.fin
  | _ => false

def sourceOf : Agent → Source
  | .core c => .core c
  | .lanA p => .lantern p
  | .lanE p => .lantern p
def agentOf : Source → Agent
  | .core c => .core c
  | .lantern p => .lanA p
  | _ => .core 0

/-- Path cost and padded bound of an access (R350, R305). -/
def pathOf (s : State) (a : Agent) (pa : Nat) : Nat :=
  match a with | .core c => homePath s.fw.bands (coreSite c) pa | _ => 0
def boundOf (s : State) (a : Agent) (pa : Nat) : Nat :=
  match a with | .core _ => 2 * pathOf s a pa + padded pa + 8 | _ => 128

/-- The latency bound of a lat field (R71, R305). -/
def latOf (s : State) (a : Agent) (pa : Nat) (lat : BitVec 9) : Nat :=
  if lat == 0 then boundOf s a pa else lat.toNat

/-- The virtual address of an access of the bundle at hand through a handle, none for a lantern. -/
def handleVa (s : State) (h : Nat) (off : Int) : Option Nat :=
  match s.cur.agent with
  | .core c => some (((s.core c).handle h).va + off).toNat
  | _ => none

/-- An access of the bundle at hand. -/
def mkAccess (s : State) (id : Nat) (pos : Pos) (kind : AccKind) (va : Option Nat) (pa n : Nat) (data : V512) (cmp : W64)
    (land : Landing) (rel acq : Bool) (lat : Nat) : Access :=
  { id := id, src := sourceOf s.cur.agent, slot := pos, kind := kind, pa := pa, size := n, data := data, cmp := cmp,
    land := land, at_ := s.cur.pos, ser := 2 * s.serial, release := rel, acquire := acq, scope := s.cur.scope,
    path := pathOf s s.cur.agent pa, bound := boundOf s s.cur.agent pa, lat := lat, late := s.at + lat,
    stamp := s.at + 4 + pathOf s s.cur.agent pa, retry := false, came := none, since := s.now, va := va }

def enterLd (s : State) (x : Access) : State :=
  s.setLdq s.cur.agent (s.ldqOf s.cur.agent ++ [x])

def overlaps (x y : Access) : Bool := x.pa < y.pa + y.size && y.pa < x.pa + x.size

/-- Enters a store: behind every entry, but ahead of the STLs of its own bundle, before which it counts as issued (R218,
R220). -/
def insertSt (l : List Access) (x : Access) : List Access :=
  let own := fun y : Access => y.release && y.ser == x.ser && !x.release
  l.filter (fun y => !own y) ++ [x] ++ l.filter own

/-- The entry of the other channel slot of a store's bundle that has bytes of the store, where neither is an STL. -/
def bundleMate (l : List Access) (x : Access) : Option Access :=
  if x.release then none else l.find? (fun y => y.ser == x.ser && !y.release && overlaps x y)

/-- The data of a store of which another of its bundle has bytes: each 8-byte unit of the overlap is drawn, for both alike (R215). -/
def mixData (b : W64) (mine : Bool) (x y : Access) : V512 :=
  BitVec.ofNat 512 (ofBytes ((List.range x.size).map (fun i =>
    let a := x.pa + i
    let z := if y.pa ≤ a && a < y.pa + y.size && b.getLsbD (a / 8 % 64) != mine then y else x
    (toBytes z.data.toNat z.size).getD (a - z.pa) 0)))

def isPlain (x : Access) : Bool := match x.kind with | .store => true | _ => false

/-- Enters a store among those of a queue or of the gated buffer. The two slots of a bundle are not ordered (R215): where they share
bytes, plain stores leave in each unit the value of one of the two, and other entries stand in either order; a free value says which.
In deterministic mode CB stands after CA, so that reruns agree (R359; DESIGN CHOICE). -/
def enterIn (det : Bool) (l : List Access) (x : Access) (s : State) : List Access × State :=
  match if det then none else bundleMate l x with
  | none => (insertSt l x, s)
  | some y =>
    let r := s.draw
    if isPlain x && isPlain y then
      (insertSt (l.map (fun z => if z.id == y.id then { y with data := mixData r.1 true y x } else z))
        { x with data := mixData r.1 false x y }, r.2)
    else if r.1.getLsbD 0 then (l.flatMap (fun z => if z.id == y.id then [x, z] else [z]), r.2)
    else (insertSt l x, r.2)

def enterSt (s : State) (x : Access) : State :=
  match s.cur.agent with
  | .core c =>
    if gating s && (match x.kind, x.land with | .store, _ => true | .atomic .., .none => true | _, _ => false) then
      let r := enterIn (s.core c).detMode (s.core c).gated x s
      r.2.modCore c (fun k => { k with gated := r.1 })
    else
      let r := enterIn (s.core c).detMode (s.core c).stq x s
      r.2.modCore c (fun k => { k with stq := r.1, storeBy := max k.storeBy x.late })
  | a =>
    let r := enterIn (s.pair (pairOf a)).detMode (s.stqOf a) x s
    r.2.setStq a r.1

/-- A load of the bundle at hand: `land` makes the landing from the reserved entry and the access's number. -/
def loadAct (s : State) (pos : Pos) (kind : AccKind) (va : Option Nat) (pa n : Nat) (acq : Bool) (lat : Nat) (dst : Option QName)
    (land : Nat → Nat → Landing) (extra : Nat → State → State) : Act :=
  { fault := none, dsts := (match dst with | some q => [(q, s.at + lat)] | none => []),
    wait := !roomLd s, take := [2],
    commit := fun ids s =>
      let r := s.freshId
      let x := mkAccess r.2 r.1 pos kind va pa n 0 0 (land (ids.headD 0) r.1) false acq lat
      extra r.1 (enterLd r.2 x) }

/-- A store of the bundle at hand: GATE_OVERFLOW where the gated store buffer is full (R380). -/
def storeAct (s : State) (pos : Pos) (kind : AccKind) (va : Option Nat) (pa n : Nat) (data : V512) (cmp : W64) (rel : Bool) (gate : Bool)
    (lat : Nat) (dst : Option (QName × BitVec 3)) : Act :=
  let c := coreOf s.cur.agent
  if gate && 64 ≤ (s.core c).gated.length + s.taken 0 then Act.trap cGateOverflow FRec.none
  else
    { fault := none, dsts := (match dst with | some (q, _) => [(q, s.at + lat)] | none => []),
      wait := !gate && !roomSt s, take := if gate then [0] else [3],
      commit := fun ids s =>
        let r := s.freshId
        let land := match dst with | some (q, sz) => Landing.entry q (ids.headD 0) sz | none => .none
        enterSt r.2 (mkAccess r.2 r.1 pos kind va pa n data cmp land rel false lat) }

/-! ## Loads and stores -/

/-- LD, LDV and LDA (R188, R219): an LDA outside its reach is an LD (R218). -/
def loadHandle (p : Pre) (f : FmtCH) (acq : Bool) (s : State) : State :=
  runSlot p (fun s =>
    { lane := 0, srcs := chSrcs f,
      act := fun vs =>
        match chTarget s p.pos f vs (szBytes f.sz) false true false with
        | .error (cz, r) => Act.trap cz r
        | .ok pa =>
          let q := regQueue s f.reg f.sz
          loadAct s p.pos .load (handleVa s f.h.toNat (chOffset f vs)) pa (szBytes f.sz) (acq && inReach s.cur.scope (coreOf s.cur.agent) pa)
            (latOf s s.cur.agent pa f.lat) (some q) (fun e _ => .entry q e f.sz) (fun _ s => s),
      outs := [regQueue s f.reg f.sz] }) s

/-- ST, STV and STL (R188, R220). -/
def storeHandle (p : Pre) (f : FmtCH) (rel : Bool) (s : State) : State :=
  runSlot p (fun s =>
    { lane := 0, srcs := chSrcs f ++ [regSrc f.reg f.sz],
      act := fun vs =>
        match chTarget s p.pos f vs (szBytes f.sz) false false true with
        | .error (cz, r) => Act.trap cz r
        | .ok pa =>
          storeAct s p.pos .store (handleVa s f.h.toNat (chOffset f vs)) pa (szBytes f.sz) (chData f vs) 0
            (rel && inReach s.cur.scope (coreOf s.cur.agent) pa) (gating s) (boundOf s s.cur.agent pa) none }) s

/-- LD (R188). -/
def execLd (p : Pre) (f : FmtCH) (s : State) : Out := .next (loadHandle p f false s)
/-- LDV (R188). -/
def execLdv (p : Pre) (f : FmtCH) (s : State) : Out := .next (loadHandle p f false s)
/-- LDA (R219). -/
def execLda (p : Pre) (f : FmtCH) (s : State) : Out := .next (loadHandle p f true s)
/-- ST (R188). -/
def execSt (p : Pre) (f : FmtCH) (s : State) : Out := .next (storeHandle p f false s)
/-- STV (R188). -/
def execStv (p : Pre) (f : FmtCH) (s : State) : Out := .next (storeHandle p f false s)
/-- STL (R220). -/
def execStl (p : Pre) (f : FmtCH) (s : State) : Out := .next (storeHandle p f true s)

/-- A plain-register write whose value is still to come. -/
def pendLater (s : State) (id : Nat) (pos : Pos) (due : Nat) (wr : RegWr) : State :=
  schedule s s.cur.agent { id := id, due := due, wr := wr, ready := false, ser := s.serial, slot := pos, fill := none }

/-- GSET (R190) and DLD (R192). -/
def loadReg (p : Pre) (f : FmtCH) (wr : RegWr) (land : Nat → Landing) (s : State) : State :=
  runSlot p (fun s =>
    { lane := 0, srcs := chSrcs f,
      act := fun vs =>
        match chTarget s p.pos f vs (szBytes f.sz) false true false with
        | .error (cz, r) => Act.trap cz r
        | .ok pa =>
          let L := latOf s s.cur.agent pa f.lat
          loadAct s p.pos .load (handleVa s f.h.toNat (chOffset f vs)) pa (szBytes f.sz) false L none (fun _ id => land id)
            (fun id s' => pendLater s' id p.pos (s.at + L) wr) }) s
def execGset (p : Pre) (f : FmtCH) (s : State) : Out :=
  .next (loadReg p f (.stream (f.reg.toNat % 32) none) (fun id => .stream (f.reg.toNat % 32) id) s)
def execDld (p : Pre) (f : FmtCH) (s : State) : Out :=
  .next (loadReg p f (.desc (f.reg.toNat % 16) 0 none) (fun id => .desc (f.reg.toNat % 16) id) s)

/-! ## Atomics and WAITV -/

def caSize (f : FmtCA) : Nat := if f.wd then 8 else 4

/-- The sources of a CA form: xo, xv, and xc for ACAS (R227). -/
def caSrcs (f : FmtCA) (cas : Bool) : List Src :=
  [.x f.xo.toNat (f.pk.getLsbD 2), .x f.xv.toNat (f.pk.getLsbD 1)] ++
    (if cas then [.x f.xc.toNat (f.pk.getLsbD 0)] else [])

/-- The target of a CA form (R230): the offset is the value of xo. -/
def caTarget (s : State) (pos : Pos) (f : FmtCA) (vs : List V512) (rd wr : Bool) : Except (BitVec 8 × FRec) Nat :=
  let off := (toX (vs.getD 0 0)).toInt
  let h := (s.core (coreOf s.cur.agent)).handle f.h.toNat
  match handleFault pos h off (caSize f) true rd wr with
  | some x => .error x
  | none => .ok (h.pa + off.toNat)

/-- The sz code with which an atomic's old value lands: sign-extended for AMIN and AMAX at 32 bits (R227). -/
def atomSz (op : BitVec 7) (wide : Bool) : BitVec 3 :=
  if wide then 3 else if op == 0x19 || op == 0x1A then 6 else 2

/-- An atomic (R227): no result and no reservation with nr = 1. -/
def runAtomic (p : Pre) (f : FmtCA) (op : BitVec 7) (s : State) : State :=
  runSlot p (fun s =>
    { lane := 0, srcs := caSrcs f (op == 0x21),
      act := fun vs =>
        match caTarget s p.pos f vs true true with
        | .error (cz, r) => Act.trap cz r
        | .ok pa =>
          let L := if f.nr then boundOf s s.cur.agent pa else latOf s s.cur.agent pa f.lat
          storeAct s p.pos (.atomic op f.wd) (handleVa s f.h.toNat (toX (vs.getD 0 0)).toInt) pa (caSize f) (vs.getD 1 0)
            (toX (vs.getD 2 0)) false (f.nr && gating s) L (if f.nr then none else some (s.xq s.cur.agent f.xd.toNat, atomSz op f.wd)),
      outs := if f.nr then [] else [s.xq s.cur.agent f.xd.toNat] }) s

/-- AADD (R227). -/
def execAadd (p : Pre) (f : FmtCA) (s : State) : Out := .next (runAtomic p f 0x18 s)
/-- AMIN (R227). -/
def execAmin (p : Pre) (f : FmtCA) (s : State) : Out := .next (runAtomic p f 0x19 s)
/-- AMAX (R227). -/
def execAmax (p : Pre) (f : FmtCA) (s : State) : Out := .next (runAtomic p f 0x1A s)
/-- AMINN (R227). -/
def execAminn (p : Pre) (f : FmtCA) (s : State) : Out := .next (runAtomic p f 0x1B s)
/-- AMAXN (R227). -/
def execAmaxn (p : Pre) (f : FmtCA) (s : State) : Out := .next (runAtomic p f 0x1C s)
/-- AAND (R227). -/
def execAand (p : Pre) (f : FmtCA) (s : State) : Out := .next (runAtomic p f 0x1D s)
/-- AOR (R227). -/
def execAor (p : Pre) (f : FmtCA) (s : State) : Out := .next (runAtomic p f 0x1E s)
/-- AXOR (R227). -/
def execAxor (p : Pre) (f : FmtCA) (s : State) : Out := .next (runAtomic p f 0x1F s)
/-- AXCHG (R227). -/
def execAxchg (p : Pre) (f : FmtCA) (s : State) : Out := .next (runAtomic p f 0x20 s)
/-- ACAS (R227). -/
def execAcas (p : Pre) (f : FmtCA) (s : State) : Out := .next (runAtomic p f 0x21 s)
/-- AFADD (R228). -/
def execAfadd (p : Pre) (f : FmtCA) (s : State) : Out := .next (runAtomic p f 0x22 s)

/-- ASWAPV (R229): pops vN, then reserves its new entry. -/
def execAswapv (p : Pre) (f : FmtCH) (s : State) : Out :=
  .next (runSlot p (fun s =>
    { lane := 0, srcs := chSrcs f ++ [regSrc f.reg 7],
      act := fun vs =>
        match chTarget s p.pos f vs 64 true true true with
        | .error (cz, r) => Act.trap cz r
        | .ok pa =>
          storeAct s p.pos .swapv (handleVa s f.h.toNat (chOffset f vs)) pa 64 (chData f vs) 0 false false (latOf s s.cur.agent pa f.lat)
            (some (⟨.v, f.reg.toNat⟩, 7)),
      outs := [⟨.v, f.reg.toNat⟩] }) s)

/-- WAITV (R231): enters the load queue, and the core waits for its reply. -/
def execWaitv (p : Pre) (f : FmtCA) (s : State) : Out :=
  .next (runSlot p (fun s =>
    { lane := 0, srcs := caSrcs f false,
      act := fun vs =>
        match caTarget s p.pos f vs true false with
        | .error (cz, r) => Act.trap cz r
        | .ok pa =>
          { fault := none, dsts := [], wait := !roomLd s, take := [2],
            commit := fun _ s =>
              let r := s.freshId
              let x := mkAccess r.2 r.1 p.pos (.waitv f.xd.toNat f.wd) (handleVa r.2 f.h.toNat (toX (vs.getD 0 0)).toInt) pa (caSize f)
                         (vs.getD 1 0) 0 .wait false false (boundOf s s.cur.agent pa)
              startWait (enterLd r.2 x) (.waitv x) } }) s)

/-! ## MARK, FENCE and SPILL -/

def addOrd (s : State) (k : OrdKind) : State :=
  s.setOrds s.cur.agent (s.ordsOf s.cur.agent ++ [{ ser := 2 * s.serial + 1, kind := k }])

/-- MARK (R216). -/
def execMark (p : Pre) (s : State) : Out :=
  .next (runSlot p (fun _ => { lane := 0, srcs := [], act := fun _ => Act.eff (fun s => addOrd s .mark) }) s)
/-- FENCE (R221). On a lantern every scope reaches its memories (R303). -/
def execFence (p : Pre) (f : FmtCF) (s : State) : Out :=
  .next (runSlot p (fun _ =>
    { lane := 0, srcs := [],
      act := fun _ => Act.eff (fun s => addOrd s (.fence f.kind (match s.cur.agent with | .core _ => s.cur.scope | _ => 4))) })
    s)

/-- FILL (R186, R187): of the overflow part it enters the load queue (R214), and what it reads at its home is due 256 cycles
after issue (R185). -/
def execFill (p : Pre) (f : FmtCL) (s : State) : Out :=
  .next (runSlot p (fun s =>
    { lane := 0, srcs := clSrcs f,
      act := fun vs =>
        let c := coreOf s.cur.agent
        let k := s.core c
        let o := clAddr f vs
        let n := szBytes f.sz
        match spillFault k.spillSize o n with
        | some cz => Act.trap cz FRec.none
        | none =>
          let part := (spillPart k.spillSize o n).getD 0
          if part == 2 then
            loadAct s p.pos .load none (spillAddr c k o) n false 256 (some (regQueue s f.reg f.sz))
              (fun e _ => .fill (regQueue s f.reg f.sz) e f.sz (fwdBytes k.fwd o n)) (fun _ s => s)
          else fillLocal s f o part,
      outs := [regQueue s f.reg f.sz] }) s)

/-- SPILL (R186, R187, R380): the forwarding table holds 16 entries; an overflow SPILL is an off-core store. -/
def execSpill (p : Pre) (f : FmtCL) (s : State) : Out :=
  .next (runSlot p (fun s =>
    { lane := 0, srcs := clSrcs f ++ [regSrc f.reg f.sz],
      act := fun vs =>
        let c := coreOf s.cur.agent
        let k := s.core c
        let o := clAddr f vs
        let n := szBytes f.sz
        match spillFault k.spillSize o n with
        | some cz => Act.trap cz FRec.none
        | none =>
          if 16 ≤ k.fwd.length + s.taken 1 then Act.trap qOverflow FRec.none
          else
            let bs := toBytes (clData f vs).toNat n
            let part := (spillPart k.spillSize o n).getD 0
            let addFwd := fun (due : Option Nat) (acc : Option Nat) (s : State) =>
              s.modCore c (fun k => { k with fwd := k.fwd ++ [{ off := o, bytes := bs, due := due, acc := acc }] })
            if part == 2 then
              let act := storeAct s p.pos .store none (spillAddr c k o) n (clData f vs) 0 false (gating s)
                           (boundOf s s.cur.agent (spillAddr c k o)) none
              { act with take := act.take ++ [1],
                         commit := fun ids s' =>
                           addFwd (if gating s then none else some (s.at + 256)) (some s'.nextId) (act.commit ids s') }
            else
              { fault := none, dsts := [], take := [1],
                commit := fun _ s' =>
                  addFwd (some (s.at + spillLat part)) none
                    (addStore s' { due := s.at + spillLat part, addr := spillAddr c k o, bytes := bs, ser := s.serial }) } }) s)

/-! ## Sending -/

def isLoadKind : AccKind → Bool
  | .store => false
  | _ => true
def isStoreKind : AccKind → Bool
  | .load => false
  | .waitv .. => false
  | _ => true

/-- Every access of an agent that is not yet performed: queued, gated, or sent. -/
def State.unperformed (s : State) (a : Agent) : List Access := s.ldqOf a ++ s.stqOf a ++ s.gatedOf a ++ s.outOf a

/-- The accesses of a deterministic agent that are performed before their deadlines. -/
def State.doneOf (s : State) (a : Agent) : List Access :=
  match a with
  | .core c => (s.core c).done.filter (fun y => (s.core c).seq.vcc < y.late)
  | x => (s.pair (pairOf x)).done.filter (fun y => (s.pair (pairOf x)).a.vcc < y.late)

/-- A performed access of a deterministic agent is kept until its deadline. -/
def noteDone (s : State) (x : Access) : State :=
  match x.src with
  | .core c => s.modCore c (fun k => if k.detMode && k.seq.vcc < x.late then { k with done := k.done ++ [x] } else k)
  | .lantern p => s.modPair p (fun k => if k.detMode && k.a.vcc < x.late then { k with done := k.done ++ [x] } else k)
  | _ => s

/-- A WAITV that its home has turned back, and that is to be sent again, is not performed (R231). -/
def State.retrying (s : State) (a : Agent) : List Access :=
  match a with
  | .core c =>
    ((s.reps.filter (fun r => r.retry && r.acc.src == .core c)).map (·.acc)) ++
      (s.core c).liveWaits.filterMap (fun w => match w with | .waitv y => if y.retry then some y else none | _ => none)
  | _ => []

/-- An engine's first command waits for accesses before it at its deadline (R223). -/
def copyStarved (k : Core) (x : CopyEngine) : Bool :=
  x.queue.head?.any (fun r => r.acq && r.bytes == 0 && !r.finished && r.deadline ≤ k.seq.vcc)

/-- The group of an agent cannot go on before the agent sends what a rule holds back: an entry, a command or a T-op behind it is
due, or a full queue stops its bundle. -/
def starved (s : State) (a : Agent) : Bool :=
  (s.ldqOf a ++ s.stqOf a).any (fun x => x.late ≤ (s.seq a).vcc) ||
    s.freezes.any (fun f => match f.why with | .full b _ => b == a | _ => false) ||
    (match a with
     | .core c =>
       let k := s.core c
       copyStarved k k.eng0 || copyStarved k k.eng1 ||
         s.tops.any (fun t => t.2.from_ == .core c && t.2.launch == k.launch && t.2.stage != .done && t.2.stage != .reported &&
           t.2.deadline ≤ k.seq.vcc && k.stq.any (fun y => y.ser < 2 * t.2.ser))
     | _ => false)

/-- The accesses of an agent that an ordering rule waits for: those not performed, and in deterministic mode, until the agent's group
waits for it, those whose deadline has not come, as a BELL waits for the deadlines of its stores (R366): what the rule holds is then
sent at the same VCC in every rerun, as R359 asks (DESIGN CHOICE). -/
def State.holding (s : State) (a : Agent) : List Access :=
  s.unperformed a ++ s.retrying a ++ (if starved s a then [] else s.doneOf a)

/-- The local stores of an agent that are not yet performed, from bundles up to a place, within reach. -/
def localPending (s : State) (a : Agent) (scope ser : Nat) : Bool :=
  let st := match a with
    | .core c => (s.core c).seq.stores
    | x => (s.pair (pairOf x)).a.stores
  st.any (fun y => 2 * y.ser ≤ ser && inReach scope (coreOf a) y.addr)

/-- Whether an ordering point of the agent holds an entry back (R216, R221). A gated store counts as ahead of a MARK, so that the
mark holds loads behind it until the store is released and sent; the spec does not say whether it does (DESIGN CHOICE). -/
def ordHolds (s : State) (a : Agent) (x : Access) (store : Bool) (o : Ord) : Bool :=
  if x.ser < o.ser then false
  else
    match o.kind with
    | .mark => ((if store then s.ldqOf a else s.stqOf a ++ s.gatedOf a).any (fun y => y.ser < o.ser))
    | .fence kind scope =>
      let c := coreOf a
      let early := (s.holding a).filter (fun y => y.ser < o.ser && inReach scope c y.pa)
      let ld := early.any (fun y => isLoadKind y.kind)
      let st := early.any (fun y => isStoreKind y.kind) || localPending s a scope o.ser
      inReach scope c x.pa &&
        ((kind.getLsbD 3 && ld && isLoadKind x.kind) || (kind.getLsbD 2 && ld && isStoreKind x.kind) ||
         (kind.getLsbD 1 && st && isLoadKind x.kind) || (kind.getLsbD 0 && st && isStoreKind x.kind))

/-- Whether an LDA that is not performed holds an entry back (R219). -/
def ldaHolds (s : State) (a : Agent) (x : Access) : Bool :=
  (s.ldqOf a ++ s.outOf a ++ (if starved s a then [] else s.doneOf a)).any (fun y => y.acquire && y.ser < x.ser && inReach y.scope (coreOf a) x.pa)

/-- Whether every access within reach from bundles up to a place is performed; for an STL, the STLs of its own bundle that are
not sent apart (R220), for an engine command none apart (R223). -/
def earlierDone (s : State) (a : Agent) (stl : Bool) (id scope ser : Nat) : Bool :=
  let c := coreOf a
  !(s.holding a).any (fun y =>
      y.id != id &&
        (y.ser < ser || (y.ser == ser && (!stl || !y.release || (s.outOf a).any (fun z => z.id == y.id)))) &&
        inReach scope c y.pa) &&
    !localPending s a scope ser

def isFill (x : Access) : Bool := match x.land with | .fill .. => true | _ => false

/-- An older overflow FILL that has not been sent keeps a younger store to its bytes back, so that it takes the storage as the
SPILLs before it leave it (R186). -/
def fillHolds (s : State) (a : Agent) (x : Access) : Bool :=
  (s.ldqOf a).any (fun y => isFill y && y.ser < x.ser && y.pa < x.pa + x.size && x.pa < y.pa + y.size)

/-- Whether the head of a queue may be sent (R214 to R221, R381). -/
def sendable (s : State) (a : Agent) (store : Bool) (x : Access) : Bool :=
  !(s.ordsOf a).any (ordHolds s a x store) && !ldaHolds s a x && !(store && fillHolds s a x) &&
    (!x.release || earlierDone s a true x.id x.scope x.ser)

/-- Ordering points that can hold nothing back any more are dropped. -/
def pruneOrds (s : State) (a : Agent) : State :=
  let low := (s.holding a).map (·.ser)
  s.setOrds a ((s.ordsOf a).filter (fun o => low.any (fun x => x < o.ser) || localPending s a 4 o.ser))

/-- An access as it is sent: where a rule has held it until its stamp has passed, its place at its home is behind the accesses whose
stamp is the VCC of its sending (R356, R359; DESIGN CHOICE). -/
def sentStamp (s : State) (a : Agent) (x : Access) : Access :=
  if x.stamp ≤ (s.seq a).vcc then { x with stamp := (s.seq a).vcc, held := true } else x

/-- QUEUE_SEND (R214): the head of a queue leaves for its home. -/
def queueSend (a : Agent) (store : Bool) (s : State) : State :=
  match (if store then s.stqOf a else s.ldqOf a) with
  | [] => s
  | x :: rest =>
    if sendable s a store x then
      let s := if store then s.setStq a rest else s.setLdq a rest
      let x := sentStamp s a x
      pruneOrds { s.setOut a (s.outOf a ++ [x]) with reqs := s.reqs ++ [x] } a
    else s
def execQueueSend (a : Agent) (store : Bool) (s : State) : Out := .next (queueSend a store s)

/-- A released store takes its place in the store queue by its bundle (R214), so that what an ordering rule holds behind it is
behind it. -/
def placeSt (l : List Access) (x : Access) : List Access :=
  l.takeWhile (fun y => y.ser ≤ x.ser) ++ [x] ++ l.dropWhile (fun y => y.ser ≤ x.ser)

/-- Gated stores enter the store queue, in order, their bounds counted from now; the forwarding entries of their SPILLs
live 256 cycles more (R187, R380, R381). -/
def releaseGated (c : Nat) (s : State) : State :=
  let t := s.vccOf c
  s.modCore c (fun k =>
    { k with stq := (k.gated.map (fun x => { x with late := t + x.lat, stamp := t + 4 + x.path })).foldl placeSt k.stq, gated := [],
             fwd := k.fwd.map (fun f => if f.due.isNone then { f with due := some (t + 256) } else f),
             storeBy := (k.gated.map (fun x => t + x.lat)).foldl max k.storeBy })

/-! ## Landing -/

/-- A stream word as a pattern, none where it breaks R190 or R52. -/
def streamOf (n : Nat) : Option Stream :=
  let w := n % 256
  let m := n / 256 % 256
  let p := n / 65536 % 256
  let o := n / 2 ^ 24 % 256
  let st := n / 2 ^ 32
  if 1 ≤ w && w ≤ 16 && 1 ≤ m && m * w ≤ p && p ≤ 128 && o < p && st ≤ 524287 then
    some { w := w, n := m, period := p, first := o, start := st, pos := 0, poison := none }
  else none

/-- A poisoned stream register: the first read raises ACC_ERROR (R385). -/
def poisonedStream (pa : Nat) : Stream :=
  { w := 1, n := 1, period := 1, first := 0, start := 0, pos := 0, poison := some pa }

/-- The plain-register writes of a list after the value of one has come. -/
def fillList (id : Nat) (wr : RegWr) (l : List PendWr) : List PendWr :=
  l.map (fun w => if w.id == id && !w.ready then { w with wr := wr, ready := true } else w)

/-- A value comes to a plain-register write, also to one that the snapshot keeps (R379). -/
def fillPend (s : State) (a : Agent) (id : Nat) (wr : RegWr) : State :=
  let s := s.modSeq a (fun k => { k with pend := fillList id wr k.pend })
  match a with
  | .core c => s.modCore c (fun k => { k with snap := k.snap.map (fun x => { x with pendRegs := fillList id wr x.pendRegs }) })
  | _ => s

/-- An entry that the snapshot keeps reserved takes the value it lands with (R379). -/
def landSnap (s : State) (a : Agent) (q : QName) (id : Nat) (v : V512) (poison : Option Nat) : State :=
  let land := fun l : List Entry => l.map (fun e => if e.id == id then { e with data := some v, poison := poison } else e)
  match a with
  | .core c => s.modCore c (fun k => { k with snap := k.snap.map (fun x =>
      { x with queues := x.queues.map (fun y => if y.1 == q then (y.1, land y.2) else y) }) })
  | _ => s

/-- A fault that the next bundle boundary of a core takes (R385, R205). -/
def laterFault (s : State) (c : Nat) (f : SlotFault) : State :=
  s.modCore c (fun k => { k with ackFaults := k.ackFaults ++ [f] })

/-- What a poisoned or error reply, or an abandoned write, does besides its landing (R205, R385, R313). -/
def replyFault (s : State) (r : Reply) : State :=
  let x := r.acc
  match x.src with
  | .core c =>
    if r.abandoned then laterFault s c { slot := x.slot, cause := cFreezeTimeout, frec := { FRec.none with slot := x.slot } }
    else if r.poison then
      (match x.land with
       | .entry .. => s
       | .fill .. => s
       | .stream .. => s
       | .desc .. => s
       | _ => laterFault s c { slot := x.slot, cause := cAccError, frec := frecPoison x.slot x.pa })
    else s
  | .lantern p =>
    if r.abandoned || r.poison then
      s.modPair p (fun k => { k with faulted := (if k.faulted.isSome then k.faulted else
        some (lanternReport false (oneFault x.slot (if r.abandoned then cFreezeTimeout else cAccError) FRec.none) x.at_)) })
    else s
  | _ => s

/-- The access of a wait at WAITV, where it is one asked for. -/
def waitvOf (f : Access → Bool) (w : Wait) : Option Access :=
  match w with
  | .waitv y => if f y then some y else none
  | _ => none

/-- A wait at WAITV goes on with its access changed. -/
def swapWait (l : List Wait) (x y : Access) : List Wait := l.map (fun w => if w == .waitv x then .waitv y else w)

/-- The landing itself (R101, R190, R192). -/
def landReply (s : State) (r : Reply) : State :=
  let x := r.acc
  let a := agentOf x.src
  match x.land with
  | .none => s
  | .entry q id sz =>
    let v := loadExt sz r.data.toNat
    let po := if r.poison then some x.pa else none
    landSnap (landEntry s a q id v po) a q id v po
  | .fill q id sz fwd =>
    let v := loadExt sz (ofBytes (overlay fwd (toBytes r.data.toNat x.size)))
    let po := if r.poison && fwd.length < x.size then some x.pa else none
    landSnap (landEntry s a q id v po) a q id v po
  | .stream n id =>
    fillPend s a id (.stream n (if r.poison then some (poisonedStream x.pa) else streamOf (r.data.toNat % 2 ^ 64)))
  | .desc n id => fillPend s a id (.desc n r.data (if r.poison then some x.pa else none))
  | .wait =>
    s.modCore (coreOf a) (fun k =>
      match k.liveWaits.findSome? (waitvOf (fun y => y.id == x.id)) with
      | none => k
      | some y =>
        if r.retry then { k with waits := swapWait k.waits y { y with late := k.seq.vcc + 64, retry := true } }
        else wakeCore k (.waitv y) (max (k.seq.vcc + 1) r.resumeAt))

/-- What a reply carries to an agent outside: the bytes of a load or an atomic, nothing for a write, none for an error. -/
def replyBytes (r : Reply) : Option (List Byte) :=
  if r.poison then none
  else
    match r.acc.kind with
    | .store => some []
    | .waitv .. => some []
    | _ => some (toBytes r.data.toNat r.acc.size)

/-- REPLY_LANDS (R101, R385); for a WAITEV the write that meets it completes the command (R321). -/
def replyLands (n : Nat) (s : State) : State :=
  match s.reps.find? (fun r => r.acc.id == n) with
  | none => s
  | some r =>
    let s := { s with reps := s.reps.filter (fun y => y.acc.id != n) }
    match r.acc.src with
    | .command q slot => completeCmd q slot 0 0 s
    | .peer k => { s with peerReps := s.peerReps ++ [(k, replyBytes r)] }
    | .host => { s with hostReads := s.hostReads ++ [(r.acc.pa, replyBytes r)] }
    | .core c => replyFault (landReply (sampleSpire s c 1 (s.now - r.acc.since)) r) r
    | .lantern _ => replyFault (landReply s r) r

/-- A wait at WAITV whose retry reply landed 64 cycles ago. -/
def retryDue (k : Core) : Option Access := k.liveWaits.findSome? (waitvOf (fun y => y.retry && y.late ≤ k.seq.vcc))

/-- WAITV_RETRY (R231): 64 cycles after a retry reply the request is sent again, alone. -/
def waitvRetry (c : Nat) (s : State) : State :=
  match retryDue (s.core c) with
  | none => s
  | some x =>
    let t := s.vccOf c
    let y := { x with retry := false, late := t + x.bound, stamp := t + 4 + x.path, came := none, since := s.now }
    s.modCore c (fun k => { k with waits := swapWait k.waits x y, ldq := k.ldq ++ [y] })
def execWaitvRetry (c : Nat) (s : State) : Out := .next (waitvRetry c s)

end Sys2Proof.Machine
end

