-- ==== Sys2Proof/Machine/Carillon.lean ====
section
/-! DEFINITION. The Carillon: peals, arrivals, excusals and releases of the bells (R361 to R368). -/

namespace Sys2Proof.Machine

/-- The level of a peal's root: 0 cluster, 1 spire, 2 region, 3 cupola: the lowest node above every core (R361, R362). -/
def rootLevel (cores : List Nat) : Nat :=
  match cores with
  | [] => 0
  | c :: l =>
    if l.all (fun d => d / 8 == c / 8) then 0
    else if l.all (fun d => d / 64 == c / 64) then 1
    else if l.all (fun d => regionOf (coreSite d) == regionOf (coreSite c)) then 2
    else 3

/-- Lead time G and release latency by level (R352, R367). -/
def leadOf (level : Nat) : Nat := match level with | 0 => 6 | 1 => 12 | 2 => 24 | _ => 64
def releaseOf (level : Nat) : Nat := match level with | 0 => 4 | 1 => 10 | 2 => 22 | _ => 60

def Peal.start (cores : List Nat) : Peal := { gen := 0, parts := cores, arrived := [], leaving := [], lastAt := 0 }

def State.launchOf (s : State) (n : Nat) : Option Launch := look s.launches n
def State.modLaunch (s : State) (n : Nat) (f : Launch → Launch) : State :=
  match look s.launches n with
  | some L => { s with launches := put s.launches n (f L) }
  | none => s
def Launch.bell (L : Launch) (b : Nat) : Peal := lookD L.bells b (Peal.start [])
def Launch.setBell (L : Launch) (b : Nat) (p : Peal) : Launch := { L with bells := put L.bells b p }

def setBellSt (s : State) (c b : Nat) (f : BellSt → BellSt) : State :=
  s.modCore c (fun k => { k with bells := put k.bells b (f (k.bell b)) })

/-- Changes a bell of the peal of a core's launch. -/
def modPeal (s : State) (c b : Nat) (f : Peal → Peal) : State :=
  match (s.core c).launch with
  | some n => s.modLaunch n (fun L => L.setBell b (f (L.bell b)))
  | none => s
def pealOf (s : State) (c b : Nat) : Peal :=
  match (s.core c).launch.bind s.launchOf with
  | some L => L.bell b
  | none => Peal.start []

/-! ## Arriving (R363, R366) -/

/-- The stores and atomics that an arrival waits for: sent or queued, not gated. -/
def storesBefore (k : Core) (ser : Nat) : List Nat :=
  ((k.stq ++ k.out).filter (fun x => isStoreKind x.kind && x.ser < 2 * ser)).map (·.id)

/-- A bell as the tree stands: an arrival for a generation that the peal has released is pending no more (R363, R368, R391). -/
def BellSt.seen (st : BellSt) (gen : Nat) : BellSt :=
  if st.arrived && st.gen < gen then { st with gen := st.gen + 1, arrived := false } else st

/-- A BELL arrives: one that repeats an arrival already sent takes up its state, another is held (R366, R368). Its time to the
release counts from now (R375). -/
def arrive (c b ser by_ : Nat) (s : State) : State :=
  let k := s.core c
  let st := k.bell b
  let n := st.count + 1
  if n ≤ st.sent then
    setBellSt s c b (fun x => { x with count := n, gen := n - 1, arrived := true, rung := s.now }.seen (pealOf s c b).gen)
  else
    (setBellSt s c b (fun x => { x with count := n, arrived := true, rung := s.now })).modCore c (fun k =>
      { k with bellHeld := k.bellHeld ++
        [{ bell := b, ser := ser, vcc := if k.detMode then max k.seq.vcc by_ else k.seq.vcc, waits := storesBefore k ser }] })

/-- BELL (R366). -/
def execBell (p : Pre) (f : FmtSN) (s : State) : Out :=
  .next (runSlot p (fun s =>
    { lane := 0, srcs := [],
      act := fun _ =>
        let c := coreOf s.cur.agent
        let b := f.bell.toNat
        let st := (s.core c).bell b
        if st.excused then Act.nothing
        else if st.arrived then Act.eff (fun s => startWait s (.bwait b (some (s.serial, (s.core c).storeBy))))
        else Act.eff (fun s => arrive c b s.serial (s.core c).storeBy s) }) s)

/-- BWAIT (R365). -/
def execBwait (p : Pre) (f : FmtSN) (s : State) : Out :=
  .next (runSlot p (fun s =>
    { lane := 0, srcs := [],
      act := fun _ =>
        let st := (s.core (coreOf s.cur.agent)).bell f.bell.toNat
        if st.excused || !st.arrived then Act.nothing
        else Act.eff (fun s => startWait s (.bwait f.bell.toNat none)) }) s)

/-- BTEST (R365). -/
def execBtest (p : Pre) (f : FmtSN) (s : State) : Out :=
  .next (runSlot p (fun s =>
    { lane := 0, srcs := [],
      act := fun _ =>
        let st := (s.core (coreOf s.cur.agent)).bell f.bell.toNat
        Act.reg p.pos (s.at + 1) (.pred f.pd.toNat (flagAll (!st.arrived || st.excused))) }) s)

/-- A core leaves a bell (R364): one that has arrived leaves after the release of its generation, another at once. -/
def excuse (c b : Nat) (s : State) : State :=
  let st := (s.core c).bell b
  if st.excused then s
  else
    let s := setBellSt s c b (fun x => { x with excused := true })
    if st.arrived then modPeal s c b (fun p => { p with leaving := p.leaving ++ [c] })
    else
      let at_ := if (s.core c).detMode then s.vccOf c else s.now
      modPeal s c b (fun p => { p with parts := p.parts.filter (· != c), lastAt := max p.lastAt at_ })

/-- END, and a reset of the core's spire, leave every bell (R364, R368). -/
def excuseAll (c : Nat) (s : State) : State := (List.range 8).foldl (fun s b => excuse c b s) s

/-- A BELL of a core's bundle waits for the release before it arrives. -/
def bellWaits (k : Core) (b : Nat) : Bool := k.waits.any (fun w => match w with | .bwait b' (some _) => b' == b | _ => false)

/-- END leaves every bell (R364); one that a BELL of the same bundle still waits at is left once that BELL has arrived. -/
def excuseEnd (c : Nat) (s : State) : State :=
  ((List.range 8).filter (fun b => !bellWaits (s.core c) b)).foldl (fun s b => excuse c b s) s

/-- BEXCUSE (R364). -/
def execBexcuse (p : Pre) (f : FmtSN) (s : State) : Out :=
  .next (runSlot p (fun _ =>
    { lane := 0, srcs := [], act := fun _ => Act.eff (fun s => excuse (coreOf s.cur.agent) f.bell.toNat s) }) s)

/-- Whether a held arrival may leave: what it waits for is performed, and in deterministic mode its cycle has come. -/
def arrivalReady (k : Core) (h : BellHeld) : Bool :=
  !(k.stq ++ k.out).any (fun x => h.waits.contains x.id) && !k.seq.stores.any (fun x => x.ser < h.ser) &&
    (!k.detMode || h.vcc ≤ k.seq.vcc)

/-- BELL_ARRIVAL (R366): a held arrival leaves its core and climbs the tree. -/
def bellArrival (c b : Nat) (s : State) : State :=
  match (s.core c).bellHeld.find? (fun h => h.bell == b) with
  | none => s
  | some h =>
    if !arrivalReady (s.core c) h then s
    else
      let at_ := if (s.core c).detMode then h.vcc else s.now
      let s := s.modCore c (fun k => { k with bellHeld := k.bellHeld.filter (fun x => x.bell != b) })
      let s := setBellSt s c b (fun x => { x with sent := x.sent + 1 })
      modPeal s c b (fun p => { p with arrived := p.arrived ++ [c], lastAt := max p.lastAt at_ })
def execBellArrival (c b : Nat) (s : State) : Out := .next (bellArrival c b s)

/-! ## Releasing -/

/-- The root holds every arrival of the generation (R363). -/
def Peal.full (p : Peal) : Bool := !p.parts.isEmpty && p.parts.all (fun c => p.arrived.contains c)

/-- A deterministic launch releases at exactly the VCC of R367. -/
def releaseDue (s : State) (L : Launch) (p : Peal) : Bool :=
  p.full && (!L.detMode ||
    (match L.active with
     | c :: _ => p.lastAt + releaseOf (rootLevel L.cores) ≤ (s.core c).seq.vcc
     | [] => true))

/-- A BELL that has waited arrives; one whose bundle held END leaves the bell after that arrival (R364, R366). -/
def arriveLate (c b ser by_ : Nat) (s : State) : State :=
  let s := arrive c b ser by_ s
  if (s.core c).finWait then excuse c b s else s

/-- A wait at a bell that is released ends; a BELL that waited arrives (R365, R366). -/
def releaseWait (c b : Nat) (s : State) (w : Wait) : State :=
  match w with
  | .bwait b' bell =>
    if b' != b then s
    else
      let s := match bell with | some (ser, by_) => arriveLate c b ser by_ s | none => s
      s.modCore c (fun k => wakeCore k w (k.seq.vcc + 1))
  | _ => s

/-- The release of a generation reaches one core: its arrived flag clears, its generation advances, UISTAT bit [2] is set,
and its wait at the bell ends; a BELL that waited arrives again (R363, R365, R366). A core that has retired by then sees nothing; one
whose context is saved finds the release at its restore. -/
def releaseCore (n b : Nat) (s : State) (c : Nat) : State :=
  let k := s.core c
  if k.launch != some n || k.mode == .free || k.mode == .ended then s
  else
    let s := sampleSpire s c 8 (s.now - (k.bell b).rung)
    let s := setBellSt s c b (fun x => { x with gen := x.gen + 1, arrived := false })
    let s := s.modCore c (fun k => { k with uistat := k.uistat ||| 4#64 })
    k.liveWaits.foldl (releaseWait c b) s

/-- BELL_RELEASE (R363). -/
def bellRelease (n b : Nat) (s : State) : State :=
  match s.launchOf n with
  | none => s
  | some L =>
    let p := L.bell b
    if releaseDue s L p then
      let s := s.modLaunch n (fun L => L.setBell b
        { gen := p.gen + 1, parts := p.parts.filter (fun c => !p.leaving.contains c), arrived := [], leaving := [],
          lastAt := 0 })
      p.parts.foldl (releaseCore n b) s
    else s
def execBellRelease (n b : Nat) (s : State) : Out := .next (bellRelease n b s)

/-- A release or an arrival of a deterministic launch that must come before its clock goes on. -/
def bellPending (s : State) : Bool :=
  s.launches.any (fun x => x.2.detMode && x.2.bells.any (fun p => releaseDue s x.2 p.2)) ||
    s.cores.any (fun x => x.2.detMode && x.2.bellHeld.any (arrivalReady x.2))

end Sys2Proof.Machine
end

