-- ==== Sys2Proof/Machine/HomeAct.lean ====
section
/-! DEFINITION. Accesses performed at their homes (R200, R212, R215, R226 to R231, R356). -/

namespace Sys2Proof.Machine

/-! ## The host's and the peers' requests -/

/-- The order of pending events: domes by index, pages by address, firmware events as they arose. -/
def noteKey (n : Note) : Nat :=
  if n.code == 0x10 || n.code == 0x11 then n.index
  else if n.code == 0x20 then 2 ^ 16 + n.w0.toNat
  else 2 ^ 80

def insertNote (n : Note) : List Note → List Note
  | [] => [n]
  | m :: l => if noteKey n ≤ noteKey m then n :: m :: l else m :: insertNote n l
def sortNotes : List Note → List Note
  | [] => []
  | n :: l => insertNote n (sortNotes l)

/-- Events that had room keep their places; the others are put in order. -/
def orderNotes (room : Nat) (s : State) : State := { s with notes := s.notes.take room ++ sortNotes (s.notes.drop room) }

/-- A write over the rdptr of the notification queue frees room. -/
def afterHostWrite (s : State) (pa n : Nat) (s' : State) : State :=
  match s.noteHdr with
  | some q => if pa < q.pa + 20 && q.pa + 16 < pa + n then orderNotes (q.nslots - used32 q.wr q.rd) s' else s'
  | none => s'

def hostReply (pa : Nat) (r : Option (List Byte)) (s : State) : State := { s with hostReads := s.hostReads ++ [(pa, r)] }

/-- The firmware counts among the agents of the host (R374 names no code of its own). -/
def whoFirm : Who := { kind := 4, idx := 0, spire := none }

/-- A request of an agent outside that has arrived at its home and waits there (R200, R204). -/
def outsideReq (src : Source) (kind : AccKind) (pa n : Nat) (data : V512) (cmp : W64) (s : State) : State :=
  let r := s.freshId
  let x : Access :=
    { id := r.1, src := src, slot := .ca, kind := kind, pa := pa, size := n, data := data, cmp := cmp, land := .none, at_ := 0,
      ser := 0, release := false, acquire := false, scope := 4, path := 0, bound := 0, lat := 0, late := 0, stamp := 0,
      retry := false, came := some s.now, since := s.now }
  { r.2 with reqs := r.2.reqs ++ [x] }

/-! ## Order at a home -/

def whoOf : Source → Who
  | .core c => { kind := 0, idx := c, spire := some (c / 64) }
  | .lantern p => { kind := 1, idx := p % 64, spire := none }
  | .peer k => { kind := 4, idx := k, spire := none }
  | .host => { kind := 4, idx := 0, spire := none }
  | .command .. => { kind := 4, idx := 0, spire := none }

/-- The agent of a request, with its arrival, its place among those that arrive together, and its own write. An overflow SPILL or
FILL goes through no handle and counts for no page (R342). -/
def whoReq (x : Access) : Who :=
  { whoOf x.src with
    spire := if x.va.isSome then (whoOf x.src).spire else none
    came := x.came
    rank := some (srcOrder x.src)
    own := some (.access x.id) }

/-- The number of a home in a replica set: domes, then CLMs (R352). -/
def homeNo (pa : Nat) : Nat := if paClass pa == 8 then 128 + clmOf pa else domeOf pa

/-- The launch of a source that keeps stamps at a home, and the VCC of its group (R356). -/
def stampGroup (s : State) (x : Access) : Option (Nat × Nat) :=
  let of := fun (det : Bool) (l : Option Nat) (v : Nat) =>
    match det, l with
    | true, some n =>
      match look s.launches n with
      | some L => if (paClass x.pa == 0 || paClass x.pa == 8) && L.replicas.contains (homeNo x.pa) then some (n, v) else none
      | none => none
    | _, _ => none
  match x.src with
  | .core c => of (s.core c).detMode (s.core c).launch (s.core c).seq.vcc
  | .lantern p => of (s.pair p).detMode (s.pair p).launch (s.pair p).a.vcc
  | _ => none

/-- Whether a request may arrive at its home now: requests of one source to common bytes in the order sent (R215); accesses of
a deterministic group at their stamps, equal stamps in ascending source (R356), one sent after its stamp behind the others. -/
def mayArrive (s : State) (x : Access) : Bool :=
  !(s.reqs.takeWhile (fun y => y.id != x.id)).any (fun y => y.src == x.src && overlaps x y && y.came.isNone) &&
    (match stampGroup s x with
     | none => true
     | some (n, v) =>
       x.stamp ≤ v &&
         !s.reqs.any (fun y => y.id != x.id && overlaps x y && (stampGroup s y).map (·.1) == some n &&
           (((y.stamp < x.stamp || (y.stamp == x.stamp && x.held && !y.held)) && (y.came.isNone || y.came == some s.now)) ||
            (y.stamp == x.stamp && x.held == y.held && srcOrder y.src < srcOrder x.src && y.came.isNone))))

/-- A request arrives at its home. -/
def arriveReq (s : State) (x : Access) : State :=
  { s with reqs := s.reqs.map (fun y => if y.id == x.id then { y with came := some s.now } else y) }

/-- Whether a request may be served now: it arrived in an earlier cycle, so that those that came with it are known, and no
request of its own source over its bytes stands before it. arrivedOver keeps the order among sources (R27, R200). -/
def mayServe (s : State) (x : Access) : Bool :=
  (match x.came with | some t => t < s.now | none => false) &&
    !(s.reqs.takeWhile (fun y => y.id != x.id)).any (fun y => y.src == x.src && overlaps x y)

/-- A request is performed: it leaves the lists of what is not, and its reply sets out. -/
def answer (s : State) (x : Access) (data : V512) (poison : Bool) (resumeAt : Nat) : State :=
  let a := agentOf x.src
  let s := noteDone s x
  let s := { s with reqs := s.reqs.filter (fun y => y.id != x.id),
                    reps := s.reps ++ [replyOf x data poison resumeAt] }
  s.setOut a ((s.outOf a).filter (fun y => y.id != x.id))

def retryReply (s : State) (x : Access) : State :=
  let a := agentOf x.src
  let s := { s with reqs := s.reqs.filter (fun y => y.id != x.id),
                    reps := s.reps ++ [{ replyOf x 0 false 0 with retry := true }] }
  s.setOut a ((s.outOf a).filter (fun y => y.id != x.id))

/-- Watches a home holds (R231). -/
def watchCap (pa : Nat) : Nat := if paClass pa == 8 then 64 else 1024

/-- HOME_ACCESS: a load, a store or a WAITV arrives, and in a later cycle is served (R200, R231, R385). A WAITV that is met at
its first evaluation resumes as a write of its own stamp would have it (R357): what met it was performed no later. -/
def homeAccess (r : Nat) (s : State) : State :=
  match s.reqs.find? (fun x => x.id == r) with
  | none => s
  | some x =>
    if x.came.isNone then (if mayArrive s x then arriveReq s x else s)
    else if !mayServe s x then s
    else
      match x.kind with
      | .load =>
        (match homeRead s (whoReq x) x.pa x.size with
         | .ok bs po s' => answer s' x (BitVec.ofNat 512 (ofBytes bs)) po 0
         | .err s' => answer s' x 0 true 0
         | .wait => s)
      | .store =>
        (match homeWrite s (whoReq x) (.access x.id) x.pa (toBytes x.data.toNat x.size) false with
         | .ok s' => answer (if x.src == .host then afterHostWrite s x.pa x.size s' else s') x 0 false 0
         | .err s' => answer s' x 0 true 0
         | .wait s' => s')
      | .waitv .. =>
        (match homeLook s (whoReq x) x.pa x.size with
         | .ok _ po s' =>
           if po then answer (sampleAccess s' x.pa x.came) x 0 true 0
           else if waitMet s'.mem x then answer (sampleAccess s' x.pa x.came) x 0 false (resumeCycle s' x (some x.stamp))
           else if watchCap x.pa ≤ (s'.watchesAt x.pa).length then retryReply s' x
           else
             let s' := { s' with reqs := s'.reqs.filter (fun y => y.id != x.id) }
             s'.setWatches x.pa (s'.watchesAt x.pa ++ [{ acc := x }])
         | .err s' => answer s' x 0 true 0
         | .wait => s)
      | _ => s
def execHomeAccess (r : Nat) (s : State) : Out := .next (homeAccess r s)

/-- f of R227 and R228 on W-bit words; none writes nothing. -/
def atomNew (op : BitVec 7) (w old v cmp : Nat) : Option Nat :=
  let si := asInt true w
  match op.toNat with
  | 0x18 => some (wrapN (old + v) w)
  | 0x19 => some (if si v < si old then v else old)
  | 0x1A => some (if si old < si v then v else old)
  | 0x1B => some (min old v)
  | 0x1C => some (max old v)
  | 0x1D => some (old &&& v)
  | 0x1E => some (old ||| v)
  | 0x1F => some (old ^^^ v)
  | 0x20 => some v
  | 0x21 => if old == cmp then some v else none
  | _ => some (laneAdd 10 .rne old v)

/-- HOME_ATOMIC (R226 to R229): read and write in one step, and one access of its page (R342); nothing is written on a poisoned
block. -/
def homeAtomic (r : Nat) (s : State) : State :=
  match s.reqs.find? (fun x => x.id == r) with
  | none => s
  | some x =>
    if x.came.isNone then (if mayArrive s x then arriveReq s x else s)
    else if !mayServe s x then s
    else
      let w := 8 * x.size
      let new : Option (Nat → Option Nat) :=
        match x.kind with
        | .atomic op _ => some (fun old => atomNew op w old (x.data.toNat % 2 ^ w) (x.cmp.toNat % 2 ^ w))
        | .swapv => some (fun _ => some x.data.toNat)
        | _ => none
      match new with
      | none => s
      | some f =>
        match homeRead s { whoReq x with kind := 5 } x.pa x.size with
        | .err s' => answer s' x 0 true 0
        | .wait => s
        | .ok bs po s' =>
          let old := ofBytes bs
          if po then answer s' x 0 true 0
          else
            match f old with
            | none => answer s' x (BitVec.ofNat 512 old) false 0
            | some v =>
              match homeWrite s { whoReq x with kind := 5 } (.access x.id) x.pa (toBytes v x.size) false with
              | .ok s'' => answer s'' x (BitVec.ofNat 512 old) false 0
              | .err s'' => answer s'' x 0 true 0
              | .wait s'' => s''
def execHomeAtomic (r : Nat) (s : State) : Out := .next (homeAtomic r s)

/-- A request has its turn at its home. -/
def serveReq (r : Nat) (s : State) : State :=
  match s.reqs.find? (fun x => x.id == r) with
  | some x => (match x.kind with | .atomic .. => homeAtomic r s | .swapv => homeAtomic r s | _ => homeAccess r s)
  | none => s

/-- A request of a deterministic group whose step at its home is due: it arrives at its stamp, and is performed by the padded access
after it, where its home can perform it (R356). -/
def serveDue (s : State) (x : Access) : Bool :=
  match stampGroup s x with
  | some (_, v) => (if x.came.isNone then x.stamp else x.stamp + padded x.pa) ≤ v && (serveReq x.id s).reqs != s.reqs
  | none => false

end Sys2Proof.Machine
end

