-- ==== Sys2Proof/Machine/Copy.lean ====
section
/-! DEFINITION. The copy engines: records, the copy forms, CWAIT and CSTAT, and the steps of an engine (R236 to R253). -/

namespace Sys2Proof.Machine

def Core.eng (k : Core) (e : Nat) : CopyEngine := if e == 0 then k.eng0 else k.eng1
def Core.setEng (k : Core) (e : Nat) (x : CopyEngine) : Core := if e == 0 then { k with eng0 := x } else { k with eng1 := x }
def State.eng (s : State) (c e : Nat) : CopyEngine := (s.core c).eng e
def State.modEng (s : State) (c e : Nat) (f : CopyEngine → CopyEngine) : State :=
  s.modCore c (fun k => k.setEng e (f (k.eng e)))

/-! ## Records (R237, R238, R240) -/

def i32 (v : Nat) : Int := asInt true 32 (v % 2 ^ 32)

/-- The fields of a record in AMEM; pages are captured later. -/
def recOf (bs : List Byte) : CopyRec :=
  let w := fun o => ofBytes ((bs.drop o).take 4)
  let h := w 0
  { skind := h % 8, dkind := h / 8 % 8, dims := h / 64 % 8, e := h / 512 % 4, chk := h.testBit 11,
    sbase := w 4, dbase := w 8, ext := (List.range 6).map (fun i => w (16 + 4 * i)),
    sstr := (List.range 6).map (fun i => i32 (w (40 + 4 * i))), dstr := (List.range 6).map (fun i => i32 (w (64 + 4 * i))),
    expect := BitVec.ofNat 32 (w 88), spa := 0, dpa := 0 }

/-- Reserved bytes and bits of a record are zero (R237). -/
def recClean (bs : List Byte) : Bool :=
  ofBytes (bs.take 4) / 2 ^ 12 == 0 && ((bs.drop 12).take 4).all (· == 0) && ((bs.drop 92).take 36).all (· == 0)

def kindOk (k : Nat) : Bool := k == 1 || k == 2 || k == 4 || k == 7

/-- Check 2 of R241. -/
def recFields (sum : Bool) (bs : List Byte) (r : CopyRec) : Bool :=
  recClean bs && kindOk r.skind && kindOk r.dkind && 1 ≤ r.dims && r.dims ≤ 6 &&
    (r.ext.drop r.dims).all (· == 0) && (r.sstr.drop r.dims).all (· == 0) && (r.dstr.drop r.dims).all (· == 0) &&
    (sum || !r.chk) && (!sum || 2 ≤ r.e)

def recCount (r : CopyRec) : Nat := (r.ext.take r.dims).foldl (· * ·) 1

/-- The offset of element k along strides (R238): dimension 0 varies fastest. -/
def elemOff : List Nat → List Int → Nat → Int
  | e :: es, t :: ts, k => (k % e : Nat) * t + elemOff es ts (k / e)
  | _, _, _ => 0

/-- Lowest and highest offset over a record's elements. -/
def spanLow : List Nat → List Int → Int
  | e :: es, t :: ts => min 0 (((e : Int) - 1) * t) + spanLow es ts
  | _, _ => 0
def spanHigh : List Nat → List Int → Int
  | e :: es, t :: ts => max 0 (((e : Int) - 1) * t) + spanHigh es ts
  | _, _ => 0

def srcRange (r : CopyRec) : Int × Int :=
  (r.sbase + spanLow (r.ext.take r.dims) r.sstr, r.sbase + spanHigh (r.ext.take r.dims) r.sstr + (2 ^ r.e : Nat))
def dstRange (r : CopyRec) : Int × Int :=
  (r.dbase + spanLow (r.ext.take r.dims) r.dstr, r.dbase + spanHigh (r.ext.take r.dims) r.dstr + (2 ^ r.e : Nat))

def memEnd (kind : Nat) (h : Handle) : Nat := if kind == 7 then pageSize h.large else spSize kind

/-- First byte of a record's source or destination memory: a local space, or the captured page. -/
def capture (c : Nat) (k : Core) (kind h : Nat) : Nat := if kind == 7 then (k.handle h).pa else localBase c kind

/-- Checks 3 to 6 of R241 with the permissions of R338 after check 3. Ranges overlap where they share a byte of one memory or page,
by whatever name it is reached. -/
def recFault (pos : Pos) (c : Nat) (k : Core) (hs hd : Nat) (r : CopyRec) : Option (BitVec 8 × FRec) :=
  let s := k.handle hs
  let d := k.handle hd
  let n := recCount r
  let sr := srcRange r
  let dr := dstRange r
  let u : Int := (2 ^ r.e : Nat)
  let sb : Int := capture c k r.skind hs
  let db : Int := capture c k r.dkind hd
  if r.skind == 7 && !s.valid then some (s.cause, frecInvalid pos s s.va false)
  else if r.dkind == 7 && !d.valid then some (d.cause, frecInvalid pos d d.va true)
  else if r.skind == 7 && !s.read then some (0x0F, frecAccess pos s.va s.pa true false)
  else if r.dkind == 7 && !(d.read && d.write) then some (0x0F, frecAccess pos d.va d.pa true true)
  else if n != 0 && (sr.1 < 0 || (memEnd r.skind s : Int) < sr.2 || dr.1 < 0 || (memEnd r.dkind d : Int) < dr.2) then
    some (cBounds, FRec.none)
  else if r.sbase % 2 ^ r.e != 0 || r.dbase % 2 ^ r.e != 0 || (r.sstr.take r.dims).any (fun t => t % u != 0) ||
      (r.dstr.take r.dims).any (fun t => t % u != 0) then some (cAlign, FRec.none)
  else if n != 0 && sb + sr.1 < db + dr.2 && db + dr.1 < sb + sr.2 then
    some (causeIllegalField, FRec.none)
  else none

def captureRec (c : Nat) (k : Core) (hs hd : Nat) (r : CopyRec) : CopyRec :=
  { r with spa := capture c k r.skind hs, dpa := capture c k r.dkind hd }

/-- Reads n records at 128-byte spacing, with check 1 of R241. -/
def readRecs (s : State) (c o n : Nat) : Except (BitVec 8) (List (List Byte)) :=
  if 2 ^ 19 ≤ o || 524288 < o + 128 * n then .error cBounds
  else if o % 64 != 0 then .error cAlign
  else if s.badUnder (localBase c 1 + o) (128 * n) then .error cAccError
  else .ok ((List.range n).map (fun i => s.mem.read (localBase c 1 + o + 128 * i) 128))

/-- Checks 2 to 6 record by record. -/
def checkRecs (pos : Pos) (c : Nat) (k : Core) (hs hd : Nat) (sum : Bool) :
    List (List Byte) → Except (BitVec 8 × FRec) (List CopyRec)
  | [] => .ok []
  | bs :: l =>
    let r := recOf bs
    if !recFields sum bs r then .error (causeIllegalField, FRec.none)
    else
      match recFault pos c k hs hd r with
      | some f => .error f
      | none => (checkRecs pos c k hs hd sum l).map (fun rs => captureRec c k hs hd r :: rs)

/-- The record that CPY2 stands for, none where it is ILLEGAL_FIELD (R240). -/
def cpy2Rec (xr xs : W64) : Option CopyRec :=
  let n := xs.toNat
  let L := n % 2 ^ 24
  let e := n / 2 ^ 30 % 4
  let r : CopyRec :=
    { skind := n / 2 ^ 24 % 8, dkind := n / 2 ^ 27 % 8, dims := 1, e := e, chk := false, sbase := xr.toNat % 2 ^ 32,
      dbase := xr.toNat / 2 ^ 32, ext := [L / 2 ^ e, 0, 0, 0, 0, 0], sstr := [((2 ^ e : Nat) : Int), 0, 0, 0, 0, 0],
      dstr := [((2 ^ e : Nat) : Int), 0, 0, 0, 0, 0], expect := 0, spa := 0, dpa := 0 }
  if n / 2 ^ 32 == 0 && L != 0 && L % 2 ^ e == 0 && kindOk r.skind && kindOk r.dkind then some r else none

/-! ## Deadlines (R351) -/

def chunkElems (e : Nat) : Nat := 16384 / 2 ^ e

/-- Source or destination term of a memory: its exposed latency, or the bound of its page. -/
def copyTerm (s : State) (c kind pa : Nat) : Nat :=
  if kind == 7 then 2 * homePath s.fw.bands (coreSite c) pa + padded pa + 8 else spLat kind

def chunkCost (n e : Nat) : Nat := max ((n * 2 ^ e + 63) / 64) ((n + 31) / 32)

def recTime (s : State) (c : Nat) (r : CopyRec) (from_ : Nat) : Nat :=
  let n := recCount r - from_
  let per := chunkElems r.e
  let t := copyTerm s c r.skind r.spa + copyTerm s c r.dkind r.dpa
  n / per * (t + chunkCost per r.e) + (if n % per == 0 then 0 else t + chunkCost (n % per) r.e)

def copyDeadline (s : State) (c : Nat) (c0 : Nat) (last : Nat) (recs : List CopyRec) : Nat :=
  recs.foldl (fun t r => t + recTime s c r 0) (max c0 last + 8)

/-! ## The copy forms (R239, R241, R242) -/

def ceSrcs (f : FmtCE) (two : Bool) : List Src :=
  .x f.xr.toNat f.pr :: (if two then [.x f.xs.toNat f.ps] else [])

def tagOf (e n : Nat) : BitVec 16 := BitVec.ofNat 16 (e * 2 ^ 15 + n % 2 ^ 15)

/-- A command enters its engine's queue; its tag lands at c + 1. -/
def copyIssue (s : State) (pos : Pos) (f : FmtCE) (recs : List CopyRec) (sum : Bool) (value : BitVec 32) : Act :=
  let c := coreOf s.cur.agent
  let e := if f.eng then 1 else 0
  let q := s.xq s.cur.agent f.xt.toNat
  { fault := none, dsts := [(q, s.at + 1)], wait := 16 ≤ (s.eng c e).queue.length + s.taken (4 + e), take := [4 + e],
    commit := fun ids s =>
      let x := s.eng c e
      let tag := tagOf e x.nextSeq
      let dl := copyDeadline s c s.at x.lastDeadline recs
      let run : CopyRun :=
        { tag := tag, slot := pos, recs := recs,
          pages := recs.flatMap (fun r => (if r.skind == 7 then [r.spa] else []) ++ (if r.dkind == 7 then [r.dpa] else [])),
          acq := f.acq, rel := f.rel, scope := s.cur.scope, ser := 2 * s.serial, sum := sum, value := value,
          deadline := dl, issued := s.now, since := s.now, started := false, ridx := 0, done := 0, bytes := 0, status := 0,
          finished := false, recalled := false }
      let s := s.modEng c e (fun x =>
        { x with queue := x.queue ++ [run], nextSeq := (x.nextSeq + 1) % 2 ^ 15, issuedAny := true, lastDeadline := dl })
      landEntry s s.cur.agent q (ids.headD 0) (BitVec.ofNat 512 tag.toNat) none }

/-- CPY, CPYN and CPYSUM: n records from the offset in xr. -/
def copyRecords (s : State) (pos : Pos) (f : FmtCE) (o n : Nat) (sum : Bool) (value : BitVec 32) : Act :=
  let c := coreOf s.cur.agent
  match readRecs s c o n with
  | .error cz => Act.trap cz (if cz == cAccError then frecFound s [(localBase c 1 + o, 128 * n)] else FRec.none)
  | .ok bss =>
    match checkRecs pos c (s.core c) f.hs.toNat f.hd.toNat sum bss with
    | .error (cz, r) => Act.trap cz r
    | .ok recs => copyIssue s pos f recs sum value

/-- CPY (R241). -/
def execCpy (p : Pre) (f : FmtCE) (s : State) : Out :=
  .next (runSlot p (fun s =>
    { lane := 0, srcs := ceSrcs f false,
      act := fun vs => copyRecords s p.pos f (toX (vs.getD 0 0)).toNat 1 false 0,
      outs := [s.xq s.cur.agent f.xt.toNat] }) s)

/-- CPY2 (R240). -/
def execCpy2 (p : Pre) (f : FmtCE) (s : State) : Out :=
  .next (runSlot p (fun s =>
    { lane := 0, srcs := ceSrcs f true,
      act := fun vs =>
        let c := coreOf s.cur.agent
        match cpy2Rec (toX (vs.getD 0 0)) (toX (vs.getD 1 0)) with
        | none => Act.trap causeIllegalField FRec.none
        | some r =>
          match recFault p.pos c (s.core c) f.hs.toNat f.hd.toNat r with
          | some (cz, fr) => Act.trap cz fr
          | none => copyIssue s p.pos f [captureRec c (s.core c) f.hs.toNat f.hd.toNat r] false 0,
      outs := [s.xq s.cur.agent f.xt.toNat] }) s)

/-- CPYN (R239). -/
def execCpyn (p : Pre) (f : FmtCE) (s : State) : Out :=
  .next (runSlot p (fun s =>
    { lane := 0, srcs := ceSrcs f true,
      act := fun vs =>
        let n := (toX (vs.getD 1 0)).toNat
        if n < 1 || 32 < n then Act.trap causeIllegalField FRec.none
        else copyRecords s p.pos f (toX (vs.getD 0 0)).toNat n false 0,
      outs := [s.xq s.cur.agent f.xt.toNat] }) s)

/-- CPYSUM (R245). -/
def execCpysum (p : Pre) (f : FmtCE) (s : State) : Out :=
  .next (runSlot p (fun s =>
    { lane := 0, srcs := ceSrcs f true,
      act := fun vs => copyRecords s p.pos f (toX (vs.getD 0 0)).toNat 1 true ((toX (vs.getD 1 0)).setWidth 32),
      outs := [s.xq s.cur.agent f.xt.toNat] }) s)

/-! ## Completion words, CWAIT and CSTAT (R245 to R248) -/

def runChk (r : CopyRun) : Bool := r.recs.any (·.chk)
def completionWord (r : CopyRun) (status : Nat) : W64 :=
  BitVec.ofNat 64 ((if r.sum then r.value.toNat else 0) + status * 2 ^ 32 + (if runChk r then 2 ^ 35 else 0))
def goneWord : W64 := BitVec.ofNat 64 (7 * 2 ^ 32)
def wordStatus (w : W64) : Nat := w.toNat / 2 ^ 32 % 8

/-- What a tag names: an illegal tag, a command still queued, or a completion word. -/
inductive TagRes where
  | illegal
  | queued (r : CopyRun)
  | word (w : W64)

def tagLook (k : Core) (v : W64) : TagRes :=
  let n := v.toNat
  let e := n / 2 ^ 15 % 2
  let x := k.eng e
  let last := if x.issuedAny then (x.nextSeq + 2 ^ 15 - 1) % 2 ^ 15 else 2 ^ 15 - 1
  if n / 2 ^ 16 != 0 || 2 ^ 14 ≤ (last + 2 ^ 15 - n % 2 ^ 15) % 2 ^ 15 then .illegal
  else
    match x.queue.find? (fun r => r.tag.toNat == n) with
    | some r => .queued r
    | none =>
      match x.log.find? (fun y => y.1.toNat == n) with
      | some y => .word y.2
      | none => .word goneWord

/-- The trap of a status at CWAIT. -/
def statusCause (st : Nat) : Option (BitVec 8) :=
  match st with
  | 2 => some cAccError
  | 3 => some cAccError
  | 4 => some cLeaseRecalled
  | 5 => some cFreezeTimeout
  | _ => none

def frecCopy (pos : Pos) (tag : BitVec 16) (st : Nat) : FRec :=
  { FRec.none with kind := 3, slot := pos, r0 := BitVec.ofNat 64 (tag.toNat + st * 2 ^ 16) }

/-- The entry a wait has popped, to be put back when it is withdrawn or traps. -/
def tookEntry (s : State) (peek : Bool) (v : V512) : Option Entry :=
  if peek then none else some { id := 0, due := s.at, data := some v, poison := none }

/-- CWAIT (R247). -/
def execCwait (p : Pre) (f : FmtCE) (s : State) : Out :=
  .next (runSlot p (fun s =>
    { lane := 0, srcs := ceSrcs f false,
      act := fun vs =>
        let v := toX (vs.getD 0 0)
        let a := s.cur.agent
        let q := s.xq a f.xt.toNat
        match tagLook (s.core (coreOf a)) v with
        | .illegal => Act.trap causeIllegalIndex FRec.none
        | .word w =>
          (match statusCause (wordStatus w) with
           | some cz => Act.trap cz (frecCopy p.pos (v.setWidth 16) (wordStatus w))
           | none => Act.push a q (s.at + 1) (toV w))
        | .queued _ =>
          { fault := none, dsts := [(q, 2 ^ 64)],
            commit := fun ids s' =>
              startWait s' (.cwait (v.setWidth 16) (s.xq a f.xr.toNat) (tookEntry s f.pr (vs.getD 0 0)) q (ids.headD 0)
                s.cur.pos p.pos) },
      outs := [s.xq s.cur.agent f.xt.toNat] }) s)

/-- CSTAT (R248): a command not yet reported shows status 6. -/
def execCstat (p : Pre) (f : FmtCE) (s : State) : Out :=
  .next (runSlot p (fun s =>
    { lane := 0, srcs := ceSrcs f false,
      act := fun vs =>
        let v := toX (vs.getD 0 0)
        match tagLook (s.core (coreOf s.cur.agent)) v with
        | .illegal => Act.trap causeIllegalIndex FRec.none
        | .word w => pushX s f.xt 1 w
        | .queued r => pushX s f.xt 1 (completionWord r 6),
      outs := [s.xq s.cur.agent f.xt.toNat] }) s)

/-! ## Running a command (R236, R243 to R246, R253) -/

def setHead (x : CopyEngine) (r : CopyRun) : CopyEngine := { x with queue := r :: x.queue.drop 1 }

/-- Whether a core's engines go on: not while the core is stopping (R250). -/
def enginesRun (k : Core) : Bool := match k.mode with | .stop .. => false | .free => false | .loaded => false | _ => true

/-- Whether a write of an engine waits at a dome for units. -/
def copyHeld (s : State) (c e : Nat) : Bool := s.domes.any (fun x => x.2.waiting.any (fun h => h.who == .copy c e))

/-- Whether the engine's present chunk is under way, its writes waiting at a dome: where writes that have left the engine stand, the
write that waits is one of those. -/
def chunkHeld (s : State) (c e : Nat) : Bool := copyHeld s c e && (s.eng c e).left.isEmpty

/-- A freeze stops the engines of its group (R29), but not one whose report the freeze waits for (R235, R244), nor a chunk that
already waits at a dome. -/
def engineStill (s : State) (c e : Nat) : Bool :=
  s.frozen (.core c) && !chunkHeld s c e &&
    !s.freezes.any (fun f =>
      match f.why with
      | .copy c' e' _ => c' == c && e' == e
      | .full (.core c') need => c' == c && need.contains (4 + e)
      | _ => false)

/-- COPY_COMMAND_START (R236): the head of a queue starts; a command whose captured page was recalled ends (R246). -/
def copyStart (c e : Nat) (s : State) : State :=
  match (s.eng c e).queue with
  | [] => s
  | r :: _ =>
    if r.started || !enginesRun (s.core c) || engineStill s c e then s
    else if r.recalled then s.modEng c e (fun x => setHead x { r with started := true, finished := true, status := 4 })
    else s.modEng c e (fun x => setHead x { r with started := true, since := s.now })
def execCopyCommandStart (c e : Nat) (s : State) : Out := .next (copyStart c e s)

/-- The elements of the next chunk: source and destination addresses. -/
def chunkAddrs (r : CopyRec) (done : Nat) : List (Nat × Nat) :=
  let n := min (chunkElems r.e) (recCount r - done)
  (List.range n).map (fun i =>
    ((r.spa + (r.sbase + elemOff (r.ext.take r.dims) r.sstr (done + i))).toNat,
     (r.dpa + (r.dbase + elemOff (r.ext.take r.dims) r.dstr (done + i))).toNat))

/-- What a chunk's reads meet: nothing, a wait, or a status. -/
inductive ChunkRead where
  | ok (bs : List (List Byte)) (s : State)
  | wait
  | bad (status : Nat)

def isLocal (pa : Nat) : Bool := 2 ^ 60 ≤ pa

/-- A read of n bytes that a home answers with an error or as poisoned. -/
def readRefused (s : State) (n a : Nat) : Bool := !isLocal a && (!homeKnown s a n || s.donatedAt a || s.poisoned a)

/-- The reads of a chunk of an engine of core c; a read of a local memory is not ordered with the stores of the core that are
still to be performed (R224). -/
def readChunk (s : State) (c : Nat) (w : Who) (n : Nat) (as : List Nat) : ChunkRead :=
  if as.any (fun a => !isLocal a && ((paClass a == 0 && (bankBlocked s a || heldOver s w w.own a n)) || arrivedOver s w a n)) then .wait
  else if as.any (readRefused s n) then .bad 2
  else if as.any (fun a => s.badUnder a n) then .bad 3
  else
    let r := s.readsLater (s.core c).detMode (laterStores (s.core c)) n as
    .ok r.1 r.2

/-- Bytes of elements joined into runs of rising addresses. -/
def joinRuns : List (Nat × List Byte) → List (Nat × List Byte)
  | [] => []
  | (a, bs) :: l =>
    match joinRuns l with
    | (b, cs) :: r => if a + bs.length == b then (a, bs ++ cs) :: r else (a, bs) :: (b, cs) :: r
    | [] => [(a, bs)]

/-- A run of dome bytes cut at block boundaries. -/
def cutBlocks (a : Nat) (bs : List Byte) : List (Nat × List Byte) :=
  (stepsOf a bs.length 256).map (fun b =>
    let lo := max a b
    (lo, (bs.drop (lo - a)).take (min (a + bs.length) (b + 256) - lo)))

/-- Whether two pieces stand in one block of dome memory. -/
def oneBlock (a b : Nat) : Bool := !isLocal a && paClass a == 0 && a / 256 == b / 256 && !isLocal b

/-- Pieces gathered by their dome blocks, so that each block is written once; pieces elsewhere stand alone. -/
def gatherBlocks : List (Nat × List Byte) → List (List (Nat × List Byte))
  | [] => []
  | p :: l =>
    let r := gatherBlocks l
    let same := fun g : List (Nat × List Byte) => g.any (fun q => oneBlock p.1 q.1)
    (p :: (r.filter same).flatten) :: r.filter (fun g => !same g)

/-- What a series of writes at homes ends in. -/
inductive WriteRes where
  | ok (s : State)
  | wait (s : State)
  | err (s : State)

/-- Writes the pieces of one group; 256 bytes together in one piece that a copy engine or a COPY command delivers are a block write,
those of any other agent are none (R396). -/
def writeGroup (s : State) (w : Who) (who : Writer) : List (Nat × List Byte) → HomeRes
  | [] => .ok s
  | (a, bs) :: l =>
    if isLocal a then .ok (s.localWrite a bs)
    else if paClass a == 0 then
      (if homeKnown s a bs.length then
         domeWrite s w who a bs.length ((a, bs) :: l) (w.kind == 2 && ((a, bs) :: l).any (fun p => p.2.length == 256))
       else .err s)
    else homeWrite s w who a bs false

/-- Writes groups in order; all or none of them are kept (R246, R396). A wait for pool units is registered with the dome, and so
is what a refusal leaves there. -/
def writeGroups (s0 : State) (w : Who) (who : Writer) : List (List (Nat × List Byte)) → State → WriteRes
  | [], s => .ok s
  | g :: l, s =>
    let a := (g.headD (0, [])).1
    match writeGroup s w who g with
    | .ok s' => writeGroups s0 w who l s'
    | .err _ => .err (noteBad s0 a)
    | .wait s' =>
      match ((s'.dome (domeOf a)).waiting.find? (fun h => h.who == who)), isLocal a || paClass a != 0 with
      | some h, false =>
        (match poolShort s0 w who h.addr h.size h.need with
         | .wait s'' => .wait s''
         | _ => .wait s0)
      | _, _ => .wait s0

def writePieces (s0 : State) (w : Who) (who : Writer) (ps : List (Nat × List Byte)) (s : State) : WriteRes :=
  writeGroups s0 w who (gatherBlocks ps) s

/-- RWS-32 over bytes taken four at a time (R245). -/
def rws32 : BitVec 32 → List Byte → BitVec 32
  | c, a :: b :: d :: e :: l => rws32 (c.rotateLeft 1 + BitVec.ofNat 32 (ofBytes [a, b, d, e])) l
  | c, _ => c

def runBytes (r : CopyRun) : Nat := (r.recs.map (fun x => recCount x * 2 ^ x.e)).foldl (· + ·) 0

/-- The injector's place in the bytes of the next chunk of a command, when it fires there: the command writes at least w + 1
words (R253). -/
def injPlace (k : Core) (e : Nat) (r : CopyRun) (n : Nat) : Option (Nat × Nat) :=
  let v := k.injCtl.toNat
  let w := v / 2 ^ 7 % 2 ^ 32
  let bit := v / 4 % 32
  let at_ := 4 * w + bit / 8
  if k.injCtl.getLsbD 0 && v / 2 % 2 == e && k.injFrom ≤ r.issued && 4 * (w + 1) ≤ runBytes r && r.bytes ≤ at_ &&
      at_ < r.bytes + n then
    some (at_ - r.bytes, bit % 8)
  else none

def flipBit (bs : List Byte) (i bit : Nat) : List Byte :=
  bs.mapIdx (fun j b => if j == i then b ^^^ BitVec.ofNat 8 (2 ^ bit) else b)

/-- The command after a chunk of n elements and m bytes. A record with no elements ends DONE (R238). -/
def advanceRun (r : CopyRun) (n m : Nat) (value : BitVec 32) : CopyRun :=
  let r := { r with done := r.done + n, bytes := r.bytes + m, value := value }
  match r.recs[r.ridx]? with
  | some rec =>
    if r.done < recCount rec then r
    else if r.ridx + 1 < r.recs.length then { r with ridx := r.ridx + 1, done := 0 }
    else { r with finished := true, status := if recCount rec != 0 && rec.chk && r.value != rec.expect then 1 else 0 }
  | none => { r with finished := true }

def endRun (s : State) (c e : Nat) (r : CopyRun) (st : Nat) : State :=
  s.modEng c e (fun x => setHead x { r with finished := true, status := st })

/-- Units of local memories whose bytes of the present cycle stand against an engine's write: those that a core has stored to, and
against engine 0 those of engine 1 (R249). -/
def keptUnits (s : State) (c e : Nat) : List Nat :=
  s.cores.flatMap (fun x => x.2.stored) ++ (if e == 0 then (s.core c).copied else [])

/-- The parts of a piece that no such unit covers. -/
def cutUnits (us : List Nat) (p : Nat × List Byte) : List (Nat × List Byte) :=
  if us.any (fun u => u < p.1 + p.2.length && p.1 < u + 8) then
    joinRuns (((p.2.mapIdx (fun i b => (p.1 + i, [b])))).filter (fun q => !us.contains (q.1 / 8 * 8)))
  else [p]

/-- The destination pieces of a chunk: runs of its elements, in dome memory cut at blocks. -/
def chunkPieces (runs : List (Nat × List Byte)) : List (Nat × List Byte) :=
  runs.flatMap (fun x => if isLocal x.1 || paClass x.1 != 0 then [x] else cutBlocks x.1 x.2)

/-- Pieces as they are performed in the present cycle: in a local memory and a CLM without the units that keep another value (R249). -/
def stands (s : State) (c e : Nat) (ps : List (Nat × List Byte)) : List (Nat × List Byte) :=
  ps.flatMap (fun p => if isLocal p.1 || paClass p.1 == 8 then cutUnits (keptUnits s c e) p else [p])

/-- Engine 1's units of the present cycle. -/
def noteCopied (c e : Nat) (ps : List (Nat × List Byte)) (s : State) : State :=
  if e == 0 then s
  else s.modCore c (fun k => { k with copied := k.copied ++
    (ps.filter (fun p => isLocal p.1 || paClass p.1 == 8)).flatMap (fun p => stepsOf p.1 p.2.length 8) })

def copyWho (c e : Nat) : Who := { kind := 2, idx := c, spire := some (c / 64), own := some (.copy c e) }

/-- The oldest write that has left an engine goes; with a status its command ends, unless it is reported already. -/
def leftGone (c e : Nat) (o : CopyOut) (st : Nat) (s : State) : State :=
  s.modEng c e (fun x =>
    { x with
      left := x.left.drop 1
      queue := x.queue.map (fun r => if r.tag == o.tag && r.status < st then { r with finished := true, status := st } else r) })

/-- A write that has left an engine is performed at its home; a home that refuses it ends its command. -/
def performLeft (c e : Nat) (o : CopyOut) (s : State) : State :=
  let ps := stands s c e o.group
  match writePieces s (copyWho c e) (.copy c e) ps s with
  | .ok s' => leftGone c e o 0 (noteCopied c e ps s')
  | .wait s' => s'
  | .err s' => leftGone c e o 2 s'

/-- Whether a home would refuse one of the pieces of a chunk. -/
def writeRefused (s : State) (ps : List (Nat × List Byte)) : Bool :=
  (gatherBlocks ps).any (fun g =>
    let a := (g.headD (0, [])).1
    !isLocal a && (!homeKnown s a (g.headD (0, [])).2.length || s.donatedAt a ||
      (s.poisoned a && paClass a == 0 && !g.any (fun p => p.2.length == 256))))

/-- Whether the writes of a record leave the engine and are performed later: those through a handle, with rel = 0. The memories that a
record names itself, own CLM among them, are local (R179, R223). -/
def leaves (r : CopyRun) (rec : CopyRec) : Bool := !r.rel && rec.dkind == 7

/-- The writes of a chunk: performed, or sent out of the engine (R223, R244). -/
def chunkWrites (s : State) (c e : Nat) (r : CopyRun) (rec : CopyRec) (ps : List (Nat × List Byte)) : WriteRes :=
  if !leaves r rec then
    (match writePieces s (copyWho c e) (.copy c e) (stands s c e ps) s with
     | .ok s' => .ok (noteCopied c e (stands s c e ps) s')
     | x => x)
  else if writeRefused s ps then
    .err (noteBads s ((ps.filter (fun p => writeRefused s [p])).map (·.1)))
  else
    let out : List CopyOut := (gatherBlocks ps).map (fun g => { tag := r.tag, slot := r.slot, deadline := r.deadline, group := g })
    .ok (s.modEng c e (fun x => { x with left := x.left ++ out }))

/-- Whether a write that has left an engine stands over one of some bytes, n from each address. -/
def leftOver (x : CopyEngine) (n : Nat) (as : List Nat) : Bool :=
  x.left.any (fun o => o.group.any (fun p => as.any (fun a => a < p.1 + p.2.length && p.1 < a + n)))

/-- The VCC at which a command nominally begins to move data: its deadline less its cost (R351). -/
def runFrom (s : State) (c : Nat) (r : CopyRun) : Nat := r.deadline - (r.recs.map (fun x => recTime s c x 0)).foldl (· + ·) 0

/-- The lead time of a core's group (R352). -/
def leadAt (s : State) (c : Nat) : Nat :=
  if (s.core c).detMode then (((s.core c).launch.bind (look s.launches)).map (·.lead)).getD 0 else 0

/-- The VCC at which the next chunk of a command is nominally done: its deadline less the lead time and the cost of what follows
(R351, R353). In deterministic mode the chunk is moved then, so that what CSTAT shows and what the governor counts are the same in
every rerun (R248, R354; DESIGN CHOICE). -/
def chunkAt (s : State) (c : Nat) (r : CopyRun) : Nat :=
  let last := r.deadline - (leadAt s c + 1)
  match r.recs[r.ridx]? with
  | some rec =>
    last - (recTime s c rec (min (recCount rec) (r.done + chunkElems rec.e)) +
      ((r.recs.drop (r.ridx + 1)).map (fun x => recTime s c x 0)).foldl (· + ·) 0)
  | none => last

/-- Whether a chunk of m bytes may be done: an engine moves at most 64 bytes in a cycle (R236). -/
def chunkTime (s : State) (c : Nat) (r : CopyRun) (m : Nat) : Bool :=
  r.since + (m + 63) / 64 ≤ s.now && (!(s.core c).detMode || chunkAt s c r ≤ s.vccOf c)

/-- One chunk of a command: its reads, then its writes. It waits for writes that have left the engine to bytes that it reads, or writes
itself. -/
def moveChunk (c e : Nat) (r : CopyRun) (rec : CopyRec) (s : State) : State :=
  let as := chunkAddrs rec r.done
  let n := 2 ^ rec.e
  let who := copyWho c e
  if leftOver (s.eng c e) n (as.map (·.1) ++ (if leaves r rec then [] else as.map (·.2))) then s
  else
    match readChunk s c who n (as.map (·.1)) with
    | .wait => s
    | .bad st =>
      endRun (if st == 3 then countFound s c (as.map (fun a => (a.1, n)))
              else noteBads s ((as.map (·.1)).filter (readRefused s n))) c e r st
    | .ok bs s =>
      let all := bs.flatten
      let inj := injPlace (s.core c) e r all.length
      let all := match inj with | some (i, b) => flipBit all i b | none => all
      let runs := joinRuns (as.mapIdx (fun i a => (a.2, (all.drop (i * n)).take n)))
      let pieces := chunkPieces runs
      let reads := (joinRuns (as.map (fun a => (a.1, List.replicate n 0)))).filter
        (fun x => !isLocal x.1 && paClass x.1 == 0)
      match chunkWrites s c e r rec pieces with
      | .wait s' => s'
      | .err s' => endRun s' c e r 2
      | .ok s' =>
        let s' := reads.foldl (fun s x => touched s x.1 x.2.length who) s'
        let v := if r.sum then rws32 r.value all else r.value
        let s' := s'.modEng c e (fun x => setHead x { advanceRun r as.length all.length v with since := s.now })
        match inj with
        | none => s'
        | some _ => s'.modCore c (fun k =>
            { k with injCtl := k.injCtl &&& ~~~1#64, injStat := BitVec.ofNat 64 (1 + r.tag.toNat * 2) })

/-- The command at the head of an engine goes on by one chunk (R243). -/
def stepRun (c e : Nat) (r : CopyRun) (s : State) : State :=
  let live := chunkHeld s c e
  if !r.started || r.finished || (!enginesRun (s.core c) && !live) then s
  else if r.recalled && !live then endRun s c e r 4
  else if r.acq && r.bytes == 0 && !earlierDone s (.core c) false s.nextId r.scope r.ser then s
  else
    match r.recs[r.ridx]? with
    | none => endRun s c e r 0
    | some rec =>
      if recCount rec == 0 then s.modEng c e (fun x => setHead x (advanceRun r 0 0 r.value))
      else if chunkTime s c r (2 ^ rec.e * min (chunkElems rec.e) (recCount rec - r.done)) then moveChunk c e r rec s
      else s

/-- COPY_CHUNK (R243): the engine goes on by one chunk, or a write that has left it is performed. Within a command which of the two
comes is open; a later command of the engine comes after every write of an earlier one (R236), and in deterministic mode the write
comes first (DESIGN CHOICE). No freeze keeps a write that has left. -/
def copyChunk (c e : Nat) (s : State) : State :=
  let x := s.eng c e
  match x.queue, x.left with
  | [], [] => s
  | r :: _, [] => if engineStill s c e then s else stepRun c e r s
  | [], o :: _ => performLeft c e o s
  | r :: _, o :: _ =>
    if (s.core c).detMode || r.tag != o.tag || r.finished || engineStill s c e then performLeft c e o s
    else
      let d := s.draw
      if d.1.getLsbD 0 then performLeft c e o d.2 else stepRun c e r d.2
def execCopyChunk (c e : Nat) (s : State) : Out := .next (copyChunk c e s)

/-- A step that an engine of a deterministic core makes before the clock goes on. -/
def copyDue (s : State) (c e : Nat) : Bool :=
  (s.core c).detMode &&
    (((copyStart c e s).eng c e).queue != (s.eng c e).queue ||
     ((copyChunk c e s).eng c e).queue != (s.eng c e).queue || ((copyChunk c e s).eng c e).left != (s.eng c e).left)

/-- What a wait at CWAIT for a command keeps: where its tag came from and the entry popped, its destination and entry, the
place of its bundle and its slot. -/
def cwaitOf (tag : BitVec 16) (w : Wait) : Bool :=
  match w with
  | .cwait t .. => t == tag
  | _ => false

/-- The completion word of a wait at CWAIT lands, or, with a status that traps, the wait's own effects are undone (R247). -/
def endCwait (c : Nat) (word : Option W64) (s : State) (w : Wait) : State :=
  match w with
  | .cwait _ src took dst eid _ _ =>
    let a := Agent.core c
    (match word with
     | some v =>
       (s.setEntries a dst ((s.entries a dst).map (fun e =>
          if e.id == eid then { e with due := s.vccOf c + 1, data := some (toV v) } else e))).modCore c
            (fun k => wakeCore k w (k.seq.vcc + 1))
     | none =>
       let s := s.setEntries a dst ((s.entries a dst).filter (fun e => e.id != eid))
       let s := match took with | some e => s.setEntries a src (e :: s.entries a src) | none => s
       s.modCore c (fun k => { k with waits := k.waits.filter (· != w) }))
  | _ => s

/-- The trap that a wait at CWAIT takes at its command's report. -/
def cwaitFault (tag : BitVec 16) (st : Nat) (cz : BitVec 8) (w : Wait) : List SlotFault :=
  match w with
  | .cwait _ _ _ _ _ _ slot => oneFault slot cz (frecCopy slot tag st)
  | _ => []

/-- The bundle of a wait at CWAIT. -/
def cwaitPos (w : Wait) : Nat :=
  match w with
  | .cwait _ _ _ _ _ pos _ => pos
  | _ => 0

/-- A core's waits for a command end with its report, in the completion word or in a trap at the CWAIT's bundle (R247). A core
that has trapped already takes no further trap. -/
def wakeCwait (s : State) (c : Nat) (tag : BitVec 16) (w : W64) : State :=
  let ws := (s.core c).liveWaits.filter (cwaitOf tag)
  match ws, statusCause (wordStatus w) with
  | [], _ => s
  | _, none => ws.foldl (endCwait c (some w)) s
  | x :: _, some cz =>
    let s := ws.foldl (endCwait c none) s
    (match (s.core c).mode with
     | .run => takeTrap s (.core c) (ws.flatMap (cwaitFault tag (wordStatus w) cz)) (cwaitPos x)
     | _ => s)

/-- COPY_REPORT (R244): at completion, in deterministic mode not before the deadline. -/
def copyReport (c e : Nat) (s : State) : State :=
  match (s.eng c e).queue with
  | [] => s
  | r :: rest =>
    if !r.finished || ((s.core c).detMode && s.vccOf c < r.deadline) then s
    else
      let w := completionWord r r.status
      let s := s.modEng c e (fun x =>
        { x with queue := rest, log := ((r.tag, w) :: x.log).take 16,
                 errors := if 2 ≤ r.status then (r.tag, r) :: x.errors else x.errors })
      let s := s.modCore c (fun k => { k with uistat := k.uistat ||| 1#64 })
      wakeCwait s c r.tag w
def execCopyReport (c e : Nat) (s : State) : Out := .next (copyReport c e s)

end Sys2Proof.Machine
end

