-- ==== Sys2Proof/Machine/Placed.lean ====
section
/-! DEFINITION. Placed operations: descriptors and their checks (R254 to R259, R268, R292, R293), tiles (R271), the
least-bytes rule (R267 to R270) and deadlines (R275). -/

namespace Sys2Proof.Machine

/-! ## Descriptors -/

def opTMM : Nat := 0x15
def opTRED : Nat := 0x16
def opTCOPY : Nat := 0x18
def opTSMAX : Nat := 0x19
def opTACT : Nat := 0x1A
def opTGV : Nat := 0x1B

def Desc.none : Desc :=
  { base := 0, fmt := 0, rank := 0, scaled := false, ext := [], str := [], scales := 0, grammar := 0 }

def fieldAt (n byte bytes : Nat) : Nat := n / 2 ^ (8 * byte) % 2 ^ (8 * bytes)

def extOk (rank i e : Nat) : Bool := if i < rank then 1 ≤ e && e < 2 ^ 24 else e == 0

/-- A descriptor whose every field stands in R254. -/
def descOf (v : V512) : Option Desc :=
  let n := v.toNat
  let d : Desc :=
    { base := fieldAt n 0 7, fmt := fieldAt n 8 1, rank := fieldAt n 9 1, scaled := n.testBit 80,
      ext := (List.range 4).map (fun i => fieldAt n (16 + 4 * i) 4),
      str := 1 :: (List.range 3).map (fun i => fieldAt n (32 + 4 * i) 4),
      scales := fieldAt n 48 7, grammar := fieldAt n 56 7 }
  if fieldAt n 7 1 == 0 && d.fmt ≤ 13 && 1 ≤ d.rank && d.rank ≤ 4 && fieldAt n 10 1 / 2 == 0 && fieldAt n 11 5 == 0 &&
      fieldAt n 44 4 == 0 && fieldAt n 55 1 == 0 && fieldAt n 63 1 == 0 &&
      ((List.range 4).all (fun i => extOk d.rank i (d.ext.getD i 0))) &&
      ((List.range 4).all (fun i => i < d.rank || d.str.getD i 0 == 0 || i == 0)) &&
      (if d.fmt == 11 || d.fmt == 12 then d.scaled else if d.fmt == 0 then true else !d.scaled) &&
      (d.scaled || d.scales == 0) &&
      (if d.fmt == 13 then d.rank == 2 && d.base == 0 else d.grammar == 0) then some d
  else none

def Desc.slg (d : Desc) : Bool := d.fmt == 13
def Desc.ty (d : Desc) : BitVec 4 := BitVec.ofNat 4 d.fmt
def Desc.esz (d : Desc) : Nat := laneBytes d.ty
/-- An extent, 1 from rank upward (R256). -/
def Desc.e (d : Desc) (j : Nat) : Nat := if j < d.rank then d.ext.getD j 1 else 1
def Desc.t (d : Desc) (j : Nat) : Nat := d.str.getD j 0
def Desc.nq (d : Desc) : Nat := (d.e 0 + 63) / 64
def Desc.rows (d : Desc) : Nat := d.e 1 * d.e 2 * d.e 3
def Desc.float (d : Desc) : Bool := 8 ≤ d.fmt && d.fmt ≤ 10
/-- Unscaled integers, of the integer path (R260). -/
def Desc.plainInt (d : Desc) : Bool := d.fmt ≤ 7 && !d.scaled

/-- The indices of an element. -/
structure Ix where
  a : Nat
  b : Nat
  c : Nat
  d : Nat
  deriving DecidableEq, Repr

/-- The indices of element 0 of the row of linear number r. -/
def Desc.rowIx (d : Desc) (r : Nat) : Ix := ⟨0, r % d.e 1, r / d.e 1 % d.e 2, r / d.e 1 / d.e 2⟩
def Desc.elemVa (d : Desc) (x : Ix) : Nat := d.base + d.esz * (x.a + x.b * d.t 1 + x.c * d.t 2 + x.d * d.t 3)
def Desc.scaleVa (d : Desc) (x : Ix) : Nat := d.scales + (x.b + d.e 1 * (x.c + d.e 2 * x.d)) * d.nq + x.a / 64
/-- The element of a source that stands for an element of the destination (R256). -/
def Desc.bc (d : Desc) (x : Ix) : Ix :=
  ⟨if d.e 0 == 1 then 0 else x.a, if d.e 1 == 1 then 0 else x.b, if d.e 2 == 1 then 0 else x.c,
   if d.e 3 == 1 then 0 else x.d⟩

/-- The byte ranges of an operand: address, size, and whether scale bytes (R255). -/
def Desc.runs (d : Desc) : List (Nat × Nat × Bool) :=
  if d.slg then []
  else
    (List.range d.rows).flatMap (fun r =>
      (d.elemVa (d.rowIx r), d.esz * d.e 0, false) :: (if d.scaled then [(d.scaleVa (d.rowIx r), d.nq, true)] else []))

def sharesBytes (a b : List (Nat × Nat × Bool)) : Bool :=
  a.any (fun x => b.any (fun y => x.1 < y.1 + y.2.1 && y.1 < x.1 + x.2.1))

/-- Aliasing (R268). -/
def Desc.alias_ (d e : Desc) : Bool :=
  d.base == e.base && d.fmt == e.fmt && d.scaled == e.scaled && d.rank == e.rank && d.ext == e.ext && d.str == e.str &&
    d.scales == e.scales

/-! ## The checks at issue (R259) -/

/-- Whether an operation names a second source. -/
def twoSource (op : Nat) : Bool := op ≤ 0x15 || op == opTGV
def mayAlias (op : Nat) : Bool := op ≤ 0x14 || op == 0x17 || op == opTCOPY || op == opTSMAX || op == opTACT
def sourcesOf (op : Nat) (ds1 ds2 : Desc) : List Desc := if twoSource op then [ds1, ds2] else [ds1]

def fits (s d : Desc) (js : List Nat) : Bool := js.all (fun j => s.e j == d.e j || s.e j == 1)
def redAxis (aux : BitVec 8) : Nat := aux.toNat / 16 % 4

def is16 (d : Desc) : Bool := d.fmt == 8 || d.fmt == 9

/-- Whether a form accepts a descriptor's format at a position, 0 and 1 its sources, 2 its destination (R257, R261, R292). -/
def ownOk (op pos : Nat) (d : Desc) : Bool :=
  if op == opTGV then
    (match pos with
     | 0 => d.slg
     | 1 => d.fmt == 10 && d.rank == 2 && 1 ≤ d.e 1 && d.e 1 ≤ 16
     | _ => d.float && d.rank == 2)
  else if d.slg then false
  else if op == opTMM then (if pos == 2 then d.scaled || d.float else d.scaled || is16 d || d.fmt == 10)
  else if op == opTSMAX && pos == 0 then d.scaled || d.float
  else true

/-- Whether two sources go together. -/
def pairOk (op : Nat) (a b : Desc) : Bool :=
  if op == opTGV then b.e 0 == a.e 0
  else if op == opTMM then
    ((a.scaled && b.scaled) || (is16 a && is16 b) || (a.fmt == 10 && b.fmt == 10)) && a.e 0 == b.e 0
  else true

/-- Whether a destination has the shape, and where it must the format, that its sources give it (R256, R257, R262). -/
def destOk (op : Nat) (aux : BitVec 8) (dd a b : Desc) : Bool :=
  if op == opTGV then dd.e 0 == a.e 1 && dd.e 1 == b.e 1
  else if op == opTMM then dd.e 0 == b.e 1 && dd.e 1 == a.e 1 && fits a dd [2, 3] && fits b dd [2, 3]
  else if op == opTRED then
    redAxis aux < a.rank && (List.range 4).all (fun j => dd.e j == (if j == redAxis aux then 1 else a.e j))
  else if op == opTSMAX then (List.range 4).all (fun j => dd.e j == a.e j) && dd.e 0 ≤ 4096
  else
    fits a dd [0, 1, 2, 3] && fits b dd [0, 1, 2, 3] &&
      (op != opTCOPY || (a.fmt == dd.fmt && a.scaled == dd.scaled && (!a.scaled || a.e 0 == dd.e 0)))

/-- Shapes and formats of a form. -/
def shapeOk (op : Nat) (aux : BitVec 8) (dd a b : Desc) : Bool :=
  ownOk op 2 dd && ownOk op 0 a && (!twoSource op || ownOk op 1 b) && pairOk op a b && destOk op aux dd a b

/-- Destination elements do not overlap one another (R259). -/
def apart (d : Desc) : Bool :=
  ((List.range d.rank).drop 1).all (fun j => d.e (j - 1) * d.t (j - 1) ≤ d.t j)

/-- The cause that the checks of R259 raise, none where the T-op may go on. -/
def topCheck (op : Nat) (aux : BitVec 8) (dd ds1 ds2 : Option Desc) : Option (BitVec 8) :=
  match dd, ds1, ds2 with
  | some dd, some a, some b =>
    let srcs := sourcesOf op a b
    let clash := fun s : Desc => !(mayAlias op && dd.alias_ s) && sharesBytes dd.runs s.runs
    if dd.slg || !shapeOk op aux dd a b || !apart dd || srcs.any clash then some causeIllegalField
    else if (dd :: srcs).any (fun d => if d.slg then d.grammar % 64 != 0 else d.base % d.esz != 0) then some cAlign
    else none
  | _, _, _ => some causeIllegalField

/-! ## Tiles (R271) -/

/-- Up to 64 elements of one row of the destination from a multiple of 64 on. -/
structure Seg where
  x : Ix
  n : Nat
  deriving DecidableEq, Repr

def segOf (d : Desc) (row q : Nat) : Seg := ⟨{ d.rowIx row with a := 64 * q }, min 64 (d.e 0 - 64 * q)⟩
def rangeFrom (lo hi : Nat) : List Nat := (List.range (hi - lo)).map (fun i => lo + i)

def tileCount (op : Nat) (d : Desc) : Nat :=
  if op == opTSMAX then (d.rows + 4096 / d.e 0 - 1) / (4096 / d.e 0)
  else if d.rank == 1 then (d.e 0 + 4095) / 4096
  else d.nq * ((d.e 1 + 63) / 64) * d.e 2 * d.e 3

/-- The segments of a tile. -/
def tileSegs (op : Nat) (d : Desc) (t : Nat) : List Seg :=
  if op == opTSMAX then
    let g := 4096 / d.e 0
    (rangeFrom (g * t) (min (g * t + g) d.rows)).flatMap (fun r => (List.range d.nq).map (segOf d r))
  else if d.rank == 1 then (rangeFrom (64 * t) (min (64 * t + 64) d.nq)).map (segOf d 0)
  else
    let nr := (d.e 1 + 63) / 64
    let r := t / d.nq % nr
    (rangeFrom (64 * r) (min (64 * r + 64) (d.e 1))).map (fun y =>
      segOf d (y + d.e 1 * (t / d.nq / nr)) (t % d.nq))

/-- A run of elements that a tile reads: operand position, descriptor, first element, count. -/
structure Rd where
  pos : Nat
  d : Desc
  x : Ix
  n : Nat
  deriving DecidableEq, Repr

def rowRd (pos : Nat) (d : Desc) (x : Ix) : Rd := ⟨pos, d, { x with a := 0 }, d.e 0⟩

def setDim (x : Ix) (j k : Nat) : Ix :=
  match j with
  | 0 => { x with a := k }
  | 1 => { x with b := k }
  | 2 => { x with c := k }
  | _ => { x with d := k }

/-- The rows of A and of B that an element of D = A Bᵀ takes (R261). -/
def rowA (a : Desc) (x : Ix) : Ix := { a.bc x with a := 0, b := x.b }
def rowB (b : Desc) (x : Ix) : Ix := { b.bc x with a := 0, b := x.a }

/-- What a tile reads (R260 to R265, R280). -/
def tileReads (op : Nat) (aux : BitVec 8) (dd a b : Desc) (t : Nat) : List Rd :=
  let segs := tileSegs op dd t
  (if op == opTMM then
     segs.map (fun g => rowRd 0 a (rowA a g.x)) ++
       segs.flatMap (fun g => (List.range g.n).map (fun i => rowRd 1 b (rowB b { g.x with a := g.x.a + i }))) ++
       (if aux.getLsbD 3 then segs.map (fun g => Rd.mk 2 dd g.x g.n) else [])
   else if op == opTRED then
     (if redAxis aux == 0 then segs.map (fun g => rowRd 0 a g.x)
      else segs.flatMap (fun g => (List.range (a.e (redAxis aux))).map (fun k => Rd.mk 0 a (setDim g.x (redAxis aux) k) g.n)))
   else
     (sourcesOf op a b).zipIdx.flatMap (fun s => segs.map (fun g => Rd.mk s.2 s.1 (s.1.bc g.x) (if s.1.e 0 == 1 then 1 else g.n)))).eraseDups

/-- The byte runs of a read: elements, then scale bytes. -/
def Rd.runs (r : Rd) : List (Nat × Nat × Bool) :=
  (r.d.elemVa r.x, r.n * r.d.esz, false) ::
    (if r.d.scaled then [(r.d.scaleVa r.x, (r.x.a + r.n + 63) / 64 - r.x.a / 64, true)] else [])

def sumOf (l : List Nat) : Nat := l.foldl (· + ·) 0
def maxOf (l : List Nat) : Nat := l.foldl max 0

/-- Bytes that a tile reads and writes (R275). -/
def tileCost (op : Nat) (aux : BitVec 8) (dd a b : Desc) (t : Nat) : Nat :=
  sumOf ((tileReads op aux dd a b t).flatMap (fun r => r.runs.map (fun x => x.2.1))) +
    sumOf ((tileSegs op dd t).map (fun g => g.n * dd.esz + (if dd.scaled then 1 else 0)))

def tileElems (op : Nat) (dd : Desc) (t : Nat) : Nat := sumOf ((tileSegs op dd t).map (·.n))

/-- The work factor of R275. -/
def workFactor (op : Nat) (a : Desc) : Nat :=
  if op == opTMM then a.e 0 else if op == opTCOPY then 0 else if op == opTACT then 4 else if op == opTSMAX then 8 else 1

/-! ## Who executes (R269, R270) -/

def setBits (w : W64) (n : Nat) : List Nat := (List.range n).filter (fun i => w.getLsbD i)
def State.liveCores (s : State) (sp : Nat) : List Nat := (setBits (lookD s.fw.liveCore sp 0) 64).map (fun i => sp * 64 + i)
/-- Live lantern pairs of a dome, as numbers in the dome. -/
def State.livePairs (s : State) (d : Nat) : List Nat := setBits (lookD s.fw.liveLant d 0) 64
/-- Rise-pool cores of a spire: its highest-numbered live cores (R324). -/
def State.poolOf (s : State) (sp : Nat) : List Nat :=
  let l := s.liveCores sp
  l.drop (l.length - lookD s.fw.pools sp 16)
def State.poolAt (s : State) (d : Nat) : List Nat := (adjacentSpires d).flatMap s.poolOf

/-! ## Placement (R267, R275) -/

/-- The site number a byte counts for (R255). -/
def byteDome (pa : Nat) : Nat := if paClass pa == 8 then clmOf pa / 8 else domeOf pa

/-- The 64 KiB granules of a byte range, with the bytes of the range in each. -/
def granules (va n : Nat) : List (Nat × Nat) :=
  (stepsOf va n 65536).map (fun g => (g / 65536, min (va + n) (g + 65536) - max va g))

/-- Translation for a T-op: the leaf of a virtual granule, none beyond the virtual space. -/
def State.topLeaf (s : State) (g : Nat) : Option Leaf := if 2 ^ 40 ≤ g then none else s.walk (g * 65536)

/-- Physical granule of a virtual granule under a leaf. -/
def granulePa (l : Leaf) (g : Nat) : Nat := l.pa + g * 65536 % pageSize l.large

/-- Bytes of an operand by site, over the granules that are translated. -/
def addSite (l : List (Nat × Nat)) (d n : Nat) : List (Nat × Nat) := put l d (lookD l d 0 + n)
def siteBytes (pages : List (Nat × Nat)) (runs : List (Nat × Nat × Bool)) : List (Nat × Nat) :=
  (runs.flatMap (fun r => granules r.1 r.2.1)).foldl (fun l g =>
    match look pages g.1 with
    | some pa => addSite l (byteDome pa) g.2
    | none => l) []
def bytesOf (l : List (Nat × Nat)) : Nat := sumOf (l.map (·.2))

/-- Dome of most bytes, ties to the lower index. -/
def homeOf (l : List (Nat × Nat)) : Nat :=
  (l.foldl (fun b x => if b.2 < x.2 || (b.2 == x.2 && x.1 < b.1) then x else b) (0, 0)).1

/-- Where a T-op runs and what its placement word and deadline need. -/
structure Plan1 where
  home : Nat
  rise : Bool
  noexec : Bool
  big : Nat
  far : Nat
  total : Nat
  dmax : Nat
  deriving DecidableEq, Repr

/-- The operands that count, in order: ds1, ds2 where named, dd unless aliased (R267, R268). -/
def countedOps (op : Nat) (dd a b : Desc) : List (Nat × Desc) :=
  (sourcesOf op a b).zipIdx.map (fun x => (x.2, x.1)) ++
    (if (sourcesOf op a b).any (fun s => dd.alias_ s) then [] else [(2, dd)])

/-- The least-bytes rule over the bytes of each operand by site (R267, R270). -/
def place (s : State) (op : Nat) (dd a : Desc) (ops : List (Nat × List (Nat × Nat))) : Plan1 :=
  let big := (ops.foldl (fun b x => if b.2 < bytesOf x.2 then (x.1, bytesOf x.2) else b) ((ops.map (·.1)).headD 0, 0)).1
  let home := homeOf (lookD ops (if op == opTGV then 0 else big) [])
  let rho := if op == opTMM then (match big with | 0 => dd.e 0 | 1 => dd.e 1 | _ => a.e 0) else 1
  let pool := !(s.poolAt home).isEmpty
  let live := !(s.livePairs home).isEmpty
  let rise0 := op != opTGV && 16 < rho && pool
  let rise := rise0 || (!live && op != opTGV && pool)
  let far := (ops.flatMap (·.2)).filter (fun x => x.1 != home)
  { home := home, rise := rise, noexec := !rise && !live, big := big, far := bytesOf far,
    total := sumOf (ops.map (fun x => bytesOf x.2)),
    dmax := maxOf (far.map (fun x => pathCost s.fw.bands (domeSite x.1) (domeSite home))) }

/-- Tfar of R275. -/
def tfar (p : Plan1) : Nat := if p.far == 0 then 0 else 2 * (2 * p.dmax + 120) + (p.far + 255) / 256

/-- Execution rates of R275: a lantern's and a pool core's. -/
def ratesOf (op : Nat) (a : Desc) : Nat × Nat :=
  if op == opTGV then (1, 1)
  else if op == opTMM then (match a.esz with | 1 => (64, 16384) | 2 => (32, 4096) | _ => (16, 1024))
  else (32, 32)

/-- Ttile of R275 for tiles of at most B bytes and M steps, and Texec for nt tiles over the claimants of the class. -/
def tileTime (s : State) (op : Nat) (a : Desc) (p : Plan1) (B M : Nat) : Nat :=
  let up := fun x y => (x + y - 1) / y
  let r := ratesOf op a
  if p.rise then
    let bmax := maxOf ((s.poolAt p.home).flatMap (fun c =>
      (routeCrossings (domeSite p.home) (coreSite c)).map (fun k => bandBound (lookD s.fw.bands k 0))))
    2 * (1 + bmax) + 128 + up B 128 + up M r.2
  else 64 + up B 32 + up M r.1
def claimants (s : State) (p : Plan1) : Nat := if p.rise then (s.poolAt p.home).length else (s.livePairs p.home).length
def texec (s : State) (op : Nat) (a : Desc) (p : Plan1) (nt B M : Nat) : Nat :=
  (nt + claimants s p - 1) / claimants s p * tileTime s op a p B M

/-- The placement word of TWHERE (R277). -/
def placeWord (p : Plan1) (isPart : Bool) : Nat :=
  p.home + (if p.rise then 2 ^ 7 else 0) + p.big * 2 ^ 8 + (if p.noexec then 2 ^ 14 else 0) + (if isPart then 2 ^ 15 else 0) +
    (if p.rise then p.total else p.far) % 2 ^ 48 * 2 ^ 16

end Sys2Proof.Machine
end

