-- ==== Sys2Proof/Machine/Tile.lean ====
section
/-! DEFINITION. The arithmetic of a tile (R260 to R266) and what it reads and writes (R272, R279, R280). -/

namespace Sys2Proof.Machine

/-! ## Element values -/

/-- The physical address of a virtual byte under the granules a T-op has translated. -/
def paOf (pages : List (Nat × Nat)) (va : Nat) : Nat := lookD pages (va / 65536) 0 + va % 65536

/-- Memory as a tile reads it, and the place of a virtual byte in it. -/
structure TileMem where
  m : Memory
  place : Nat → Nat

def TileMem.raw (r : TileMem) (d : Desc) (x : Ix) : Nat := r.m.num (r.place (d.elemVa x)) d.esz
def TileMem.scale (r : TileMem) (d : Desc) (x : Ix) : Nat := (r.m.get (r.place (d.scaleVa x))).toNat

/-- v(x): the exact value of an element. -/
def TileMem.val (r : TileMem) (d : Desc) (x : Ix) : FVal :=
  if d.scaled then dqntVal d.ty (r.scale d x) (r.raw d x)
  else if d.fmt ≤ 7 then ofInt (laneInt d.ty (r.raw d x)) 0
  else laneF d.ty (r.raw d x)
/-- f32(x). -/
def TileMem.f32 (r : TileMem) (d : Desc) (x : Ix) : FVal := rne32 (r.val d x)
def TileMem.int (r : TileMem) (d : Desc) (x : Ix) : Int := laneInt d.ty (r.raw d x)

/-- A result before its conversion: an exact integer or a value. -/
inductive EVal where
  | int (v : Int)
  | flt (v : FVal)

/-- VMAX and VMIN of R140 on F32 values. -/
def fMax (a b : FVal) : FVal := if fIsNan a || fIsNan b then .nan else if floatBelow a b then b else a
def fMin (a b : FVal) : FVal := if fIsNan a || fIsNan b then .nan else if floatBelow b a then b else a

/-- 1/ln 2 in F32 (R264). -/
def lambda32 : FVal := unpack fmtF32 0x3FB8AA3B

/-- TADD to TMIN on one element (R260). -/
def binInt (op : Nat) (a b : Int) : Int :=
  match op with
  | 0x10 => a + b
  | 0x11 => a - b
  | 0x12 => a * b
  | 0x13 => max a b
  | _ => min a b
def binFlt (op : Nat) (a b : FVal) : FVal :=
  match op with
  | 0x10 => rne32 (fadd .rne a b)
  | 0x11 => rne32 (fadd .rne a (fneg b))
  | 0x12 => rne32 (fmul a b)
  | 0x13 => fMax a b
  | _ => fMin a b

/-- σ of R265. -/
def sigma (v : FVal) : FVal := vrcpF (rne32 (fadd .rne fOne (vexp2F (rne32 (fmul (fneg v) lambda32)))))

/-- The functions of TACT (R265). -/
def actFn (fn : Nat) (v : FVal) : FVal :=
  match fn with
  | 0 => if fIsNan v then .nan else if fcmp v (.fin false 0 0) == .gt then v else .fin false 0 0
  | 1 => sigma v
  | 2 => rne32 (fmul v (sigma v))
  | 3 => vexp2F v
  | 4 => vrcpF v
  | 5 => vrsqF v
  | _ => fma32 (.fin false 2 0) (sigma (rne32 (fscale v 1))) (.fin true 1 0)

/-- TRED of a list of integers, and of values in ascending order (R262). -/
def redInt (op : Nat) : List Int → Int
  | [] => 0
  | x :: xs => xs.foldl (fun a b => match op with | 0 => a + b | 1 => max a b | _ => min a b) x
def redFlt (op : Nat) : List FVal → FVal
  | [] => .fin false 0 0
  | x :: xs => xs.foldl (fun a b => match op with | 0 => rne32 (fadd .rne a b) | 1 => fMax a b | _ => fMin a b) x

/-- TSMAX of one row (R264). -/
def smaxRow (xs : List FVal) : List FVal :=
  match xs with
  | [] => []
  | x :: r =>
    let m := r.foldl fMax x
    let us := xs.map (fun v => vexp2F (rne32 (fmul (rne32 (fadd .rne v (fneg m))) lambda32)))
    let S := (us.drop 1).foldl (fun a b => rne32 (fadd .rne a b)) (us.headD .nan)
    us.map (fun u => rne32 (fmul u (vrcpF S)))

/-- One element of D = A Bᵀ (R261): K-blocks of 64 on scaled sources, plain products otherwise; it starts from D's own element
as `d0` holds it. -/
def mmElem (r d0 : TileMem) (acc : Bool) (dd a b : Desc) (x : Ix) : FVal :=
  let ra := rowA a x
  let rb := rowB b x
  let C : FVal := if acc then d0.f32 dd x else .fin false 0 0
  let xs := (List.range (a.e 0)).map (fun k => (r.raw a { ra with a := k }, r.raw b { rb with a := k }))
  if a.scaled then
    scaledMac (if a.fmt == 0 then 5 else a.fmt - 8) (if b.fmt == 0 then 5 else b.fmt - 8)
      ((List.range a.nq).map (fun q => (r.scale a { ra with a := 64 * q }, r.scale b { rb with a := 64 * q })))
      (piecesOf 64 a.nq xs) C
  else plainMac (10 - a.fmt) (10 - b.fmt) xs C

/-- The results of a segment (R260 to R265). -/
def segVals (r d0 : TileMem) (op : Nat) (aux : BitVec 8) (dd a b : Desc) (g : Seg) : List EVal :=
  let xs := (List.range g.n).map (fun i => { g.x with a := g.x.a + i })
  if op == opTMM then xs.map (fun x => .flt (mmElem r d0 (aux.getLsbD 3) dd a b x))
  else if op == opTRED then
    let line := fun x => (List.range (a.e (redAxis aux))).map (fun k => setDim x (redAxis aux) k)
    if a.plainInt && dd.plainInt then xs.map (fun x => .int (redInt (aux.toNat / 64) ((line x).map (r.int a))))
    else xs.map (fun x => .flt (redFlt (aux.toNat / 64) ((line x).map (r.f32 a))))
  else if op == 0x17 then
    xs.map (fun x => if a.plainInt then .int (r.int a (a.bc x)) else .flt (r.val a (a.bc x)))
  else if op == opTSMAX then
    ((smaxRow ((List.range (a.e 0)).map (fun k => r.f32 a { g.x with a := k }))).drop g.x.a |>.take g.n).map EVal.flt
  else if op == opTACT then
    (if aux.toNat / 16 == 0 && a.plainInt && dd.plainInt then xs.map (fun x => .int (max (r.int a (a.bc x)) 0))
     else xs.map (fun x => .flt (actFn (aux.toNat / 16) (r.f32 a (a.bc x)))))
  else if a.plainInt && b.plainInt && dd.plainInt then
    xs.map (fun x => .int (binInt op (r.int a (a.bc x)) (r.int b (b.bc x))))
  else xs.map (fun x => .flt (binFlt op (r.f32 a (a.bc x)) (r.f32 b (b.bc x))))

/-- A result as an element of an unscaled destination (R43, R260, R263). -/
def convert (ty : BitVec 4) (sat : Bool) (md : RMode) : EVal → Nat
  | .int v =>
    let w := 8 * laneBytes ty
    if isInt ty then (if sat then wrapN (satI v (isSigned ty) w) w else wrapN v w)
    else rnd (ofInt v 0) (floatFmt ty) md
  | .flt v =>
    let w := 8 * laneBytes ty
    if isInt ty then
      (match v with
       | .nan => 0
       | .inf n => wrapN (if n then intMin (isSigned ty) w else intMax (isSigned ty) w) w
       | .fin n m e => wrapN (satI (rndInt n m e md) (isSigned ty) w) w)
    else rnd v (floatFmt ty) md

def EVal.val : EVal → FVal
  | .int v => ofInt v 0
  | .flt v => v

/-- What a segment writes, and its underflows (R266). -/
def segOut (r d0 : TileMem) (op : Nat) (aux : BitVec 8) (dd a b : Desc) (g : Seg) : List (Nat × List Byte) × Nat :=
  let toPa := r.place (dd.elemVa g.x)
  if op == opTCOPY then
    let xs := (List.range g.n).map (fun i => a.bc { g.x with a := g.x.a + i })
    ((toPa, xs.flatMap (fun x => toBytes (r.raw a x) a.esz)) ::
      (if dd.scaled then [(r.place (dd.scaleVa g.x), [BitVec.ofNat 8 (r.scale a (a.bc g.x))])] else []), 0)
  else
    let vs := segVals r d0 op aux dd a b g
    if dd.scaled then
      let q := quantBlock dd.ty (vs.map EVal.val)
      ([(toPa, q.2.1.map (fun c => BitVec.ofNat 8 c)), (r.place (dd.scaleVa g.x), [BitVec.ofNat 8 q.1])], q.2.2)
    else ([(toPa, vs.flatMap (fun v => toBytes (convert dd.ty (aux.getLsbD 2) (rmode (aux.setWidth 2)) v) dd.esz))], 0)

/-! ## Reading -/

/-- Physical pieces of 64-byte granules that a virtual run covers. -/
def physPieces (pages : List (Nat × Nat)) (va n : Nat) : List (Nat × Nat) :=
  (stepsOf va n 64).map (fun g => (paOf pages (max va g), min (va + n) (g + 64) - max va g))

/-- Whether bytes at a home read as poisoned or answer with an error (R279, R404). -/
def State.badRead (s : State) (pa n : Nat) : Bool :=
  !homeKnown s pa n || s.donatedAt pa || (paClass pa == 0 && s.poisoned pa) || (paClass pa != 0 && s.badUnder pa n)

/-- Whether a read must wait at its home. -/
def State.mustWait (s : State) (w : Who) (pa n : Nat) : Bool :=
  arrivedOver s w pa n || (paClass pa == 0 && (bankBlocked s pa || heldOver s w w.own pa n))

/-- A poisoned granule that a tile has met: operand position, physical address, whether in the scale array. -/
structure Met where
  pos : Nat
  pa : Nat
  scale : Bool
  deriving DecidableEq, Repr

/-- The granule the record names: lowest operand position, then lowest address (R280). -/
def Met.min : List Met → Option Met
  | [] => none
  | x :: l =>
    match Met.min l with
    | none => some x
    | some y => if y.pos < x.pos || (y.pos == x.pos && y.pa < x.pa) then some y else some x

def readsPieces (pages : List (Nat × Nat)) (rs : List Rd) : List (Nat × Bool × Nat × Nat) :=
  rs.flatMap (fun r => r.runs.flatMap (fun x => (physPieces pages x.1 x.2.1).map (fun y => (r.pos, x.2.2, y.1, y.2))))

/-- The agent that a claimant is to the homes (R209, R312): a lantern, or a pool core as a T-op executor. A pool core's reads count
as accesses of its spire, no write does (R342). -/
def whoClaim (c : Claimant) (read : Bool) : Who :=
  match c with
  | .lantern n => { kind := 1, idx := n, spire := none }
  | .pool c => { kind := 3, idx := c, spire := if read then some (c / 64) else none }

/-- A tile that has read its operands in the present cycle. -/
def TileRun.read (who : Claimant) (now : Nat) (out : List (Nat × List Byte)) (under : Nat) (fail : Option TileFail) : TileRun :=
  { who := who, since := now, got := true, out := out, under := under, fail := fail }

def poisonFail (t : Nat) (m : Met) : TileFail :=
  { tile := t, status := 1, cause := cPlacedFault, pos := m.pos, scale := m.scale, dome := byteDome m.pa,
    word1 := m.pa / 64 * 64 }

/-- The pieces of a tile's operands, with their positions. -/
def tileSpans (p : Top) (t : Nat) : List (Nat × Bool × Nat × Nat) :=
  readsPieces p.pages (tileReads p.op p.aux p.dd p.ds1 p.ds2 t)

/-- Operands as they stand, and D as it stood at issue. -/
def memNow (s : State) (p : Top) : TileMem := { m := s.mem, place := paOf p.pages }
def memAcc (s : State) (p : Top) : TileMem :=
  match p.acc with
  | some m => { m := m, place := id }
  | none => memNow s p

/-- A tile executed by a claimant; none where a block that it reads makes it wait. -/
def runTile (s : State) (p : Top) (t : Nat) (who : Claimant) : Option TileRun :=
  let pcs := tileSpans p t
  if pcs.any (fun x => s.mustWait (whoClaim who true) x.2.2.1 x.2.2.2) then none
  else
    match Met.min ((pcs.filter (fun x => s.badRead x.2.2.1 x.2.2.2)).map (fun x => ⟨x.1, x.2.2.1 / 64 * 64, x.2.1⟩)) with
    | some m => some (.read who s.now [] 0 (some (poisonFail t m)))
    | none =>
      let os := (tileSegs p.op p.dd t).map (segOut (memNow s p) (memAcc s p) p.op p.aux p.dd p.ds1 p.ds2)
      some (.read who s.now (os.flatMap (·.1)) (sumOf (os.map (·.2))) none)

/-! ## Writing (R272) -/

/-- The byte pieces of a tile's writes, each within one block. -/
def tilePieces (out : List (Nat × List Byte)) : List (Nat × List Byte) :=
  (joinRuns out).flatMap (fun x => cutBlocks x.1 x.2)

/-- What a tile's writes end in: done, with the granule of a refused block, or a wait. -/
inductive TileWrite where
  | ok (s : State) (bad : Option Nat)
  | wait (s : State)

/-- Writes a tile's groups at their homes: a refused block leaves the others written; a wait writes none. -/
def writeTileGroups (s0 : State) (w : Who) (who : Writer) : List (List (Nat × List Byte)) → State → Option Nat → TileWrite
  | [], s, bad => .ok s bad
  | g :: l, s, bad =>
    let a := (g.headD (0, [])).1
    match writeGroup s w who g with
    | .ok s' => writeTileGroups s0 w who l s' bad
    | .err s' => writeTileGroups s0 w who l s' (match bad with | some b => some (min b (a / 64 * 64)) | none => some (a / 64 * 64))
    | .wait s' =>
      match ((s'.dome (domeOf a)).waiting.find? (fun h => h.who == who)), paClass a != 0 with
      | some h, false =>
        (match poolShort s0 w who h.addr h.size h.need with
         | .wait s'' => .wait s''
         | _ => .wait s0)
      | _, _ => .wait s0

def writeTile (s0 : State) (w : Who) (who : Writer) (ps : List (Nat × List Byte)) (s : State) (bad : Option Nat) : TileWrite :=
  writeTileGroups s0 w who (gatherBlocks ps) s bad

end Sys2Proof.Machine
end

