-- ==== Sys2Proof/Machine/Grammar.lean ====
section
/-! DEFINITION. Grammar matrices: the table (R284, R285), blocks (R286 to R291), the evaluation of a band (R294), and the
rule unit with VRULE (R300, R301). -/

namespace Sys2Proof.Machine

/-- What a read of a table or block meets, or a check finds: a grammar cause at a virtual word, a poisoned granule, or a
translation cause at a virtual address. -/
inductive GFail where
  | grammar (cause : BitVec 8) (va : Nat)
  | poison (pa : Nat)
  | xlat (cause : BitVec 8) (va : Nat)

def need (b : Bool) (f : GFail) : Except GFail Unit := if b then .ok () else .error f
def badFormat (va : Nat) : GFail := .grammar cGrammarFormat va

/-! ## The table -/

/-- A permitted page of a T-op's operand, or the cause it ends with (R259, R338). -/
def State.topPage (s : State) (g : Nat) (rd wr : Bool) : Except (BitVec 8 × Nat) Leaf :=
  match s.topLeaf g with
  | none => .error (cPageFault, g * 65536)
  | some l =>
    let va := g * 65536 / pageSize l.large * pageSize l.large
    if paClass l.pa != 0 && paClass l.pa != 8 then .error (cHandleFault, va)
    else if (rd && !l.read) || (wr && !l.write) then .error (cPageFault, va)
    else .ok l

/-- A table word as the placement unit reads it. -/
def tableWord (s : State) (va : Nat) : Except GFail Nat :=
  match s.topPage (va / 65536) true false with
  | .error (cz, a) => .error (.xlat cz a)
  | .ok l =>
    let pa := granulePa l (va / 65536) + va % 65536
    if s.badRead pa 4 then .error (.poison (pa / 64 * 64)) else .ok (s.mem.num pa 4)

/-- The entries of a table from one on; the last band stands first (R284, R285). -/
def parseEntries (rd : Nat → Except GFail Nat) (addr : Nat) :
    List Nat → Nat → Nat → List Band → Except GFail (Nat × Nat × List Band)
  | [], next, tot, bs => .ok (next, tot, bs)
  | j :: js, next, tot, bs => do
    let o := addr + 16 + 24 * j
    let a0 ← rd o
    need (a0 % 64 == 0) (badFormat o)
    let a1 ← rd (o + 4)
    need (a1 / 2 ^ 24 == 0) (badFormat (o + 4))
    let nb ← rd (o + 8)
    need (nb % 64 == 0 && 64 ≤ nb && nb ≤ 2 ^ 24) (badFormat (o + 8))
    let r0 ← rd (o + 12)
    let nr ← rd (o + 16)
    need (1 ≤ nr && nr ≤ 1024) (badFormat (o + 16))
    let z ← rd (o + 20)
    need (z == 0) (badFormat (o + 20))
    let blk := (a0 + a1 * 2 ^ 32, nb)
    let fresh := match bs with | b :: _ => !(b.row0 == r0 && b.nrows == nr) | [] => true
    need (!fresh || r0 == next) (badFormat (o + 12))
    parseEntries rd addr js (if fresh then r0 + nr else next) (tot + nb)
      (match bs, fresh with
       | b :: l, false => { b with blocks := b.blocks ++ [blk] } :: l
       | l, _ => { row0 := r0, nrows := nr, blocks := [blk] } :: l)

/-- The bands of a grammar-block table (R284, R285). -/
def parseTable (rd : Nat → Except GFail Nat) (addr rows : Nat) : Except GFail (List Band) := do
  let nblk ← rd addr
  need (1 ≤ nblk && nblk ≤ 4096) (badFormat addr)
  let z ← rd (addr + 4)
  need (z == 0) (badFormat (addr + 4))
  let g0 ← rd (addr + 8)
  let g1 ← rd (addr + 12)
  let r ← parseEntries rd addr (List.range nblk) 0 0 []
  need (r.1 == rows) (badFormat (addr + 16 + 24 * (nblk - 1) + 16))
  need (r.2.1 == g0 + g1 * 2 ^ 32) (badFormat (addr + 8))
  .ok r.2.2.reverse

/-- The byte ranges of the blocks of a table. -/
def bandRuns (bs : List Band) : List (Nat × Nat × Bool) := bs.flatMap (fun b => b.blocks.map (fun x => (x.1, x.2, false)))

/-- Gband of R296, and the band it is largest for. -/
def bandBytes (b : Band) : Nat := sumOf (b.blocks.map (·.2))
def bandCost (dd x : Desc) (bs : List Band) : Nat × Nat :=
  let big := bs.foldl (fun m b => if bandBytes m < bandBytes b then b else m) (bs.headD { row0 := 0, nrows := 0, blocks := [] })
  (bandBytes big + 4 * x.e 1 * x.e 0 + dd.esz * x.e 1 * big.nrows, (bandBytes big + 3) / 4)

/-! ## Blocks -/

/-- A block that has passed every check: codebook, column base, rules and rows as lists of symbols. -/
structure GBlock where
  cb : List Nat
  col0 : Nat
  rules : List (List Nat)
  rows : List (List Nat)

/-- The word at an offset of a block; one past the end names the length field `fill` (R297). -/
def blockWord (rd : Nat → Except GFail Nat) (base size off fill : Nat) : Except GFail Nat :=
  if size < off + 4 then .error (badFormat (base + fill)) else rd (base + off)

/-- One symbol with its depth; `lim` bounds the rules it may name (R288, R290). -/
def readSym (w : Nat → Except GFail Nat) (base ncols lim : Nat) (deps : List Nat) (p : Nat) : Except GFail (Nat × Nat) := do
  let v ← w p
  let at_ := base + p
  need (v / 2 ^ 28 % 8 == 0 && v / 2 ^ 11 % 32 == 0) (badFormat at_)
  if v.testBit 31 then
    need (v / 2 ^ 16 % 4096 == 0) (badFormat at_)
    need (v % 2048 < lim) (.grammar cGrammarOrder at_)
    .ok (v, deps.getD (v % 2048) 0)
  else
    need (v / 2 ^ 8 % 8 == 0 && v / 2 ^ 16 % 4096 < ncols) (badFormat at_)
    .ok (v, 0)

/-- n symbols from an offset on, with their largest depth. -/
def readSyms (w : Nat → Except GFail Nat) (base ncols lim : Nat) (deps : List Nat) :
    Nat → Nat → Except GFail (List Nat × Nat)
  | 0, _ => .ok ([], 0)
  | n + 1, p => do
    let x ← readSym w base ncols lim deps p
    let r ← readSyms w base ncols lim deps n (p + 4)
    .ok (x.1 :: r.1, max x.2 r.2)

/-- The rules from one on (R289 to R291): symbols, depths, and where the table ends. -/
def readRules (w : Nat → Except GFail Nat) (base ncols : Nat) :
    Nat → Nat → List (List Nat) → List Nat → Except GFail (List (List Nat) × List Nat × Nat)
  | 0, p, rs, deps => .ok (rs, deps, p)
  | n + 1, p, rs, deps => do
    let h ← w p
    need (h / 2 ^ 24 ≤ 16) (.grammar cGrammarDepth (base + p))
    need (h / 2 ^ 16 % 256 == 0 && 2 ≤ h % 65536) (badFormat (base + p))
    let r ← readSyms w base ncols rs.length deps (h % 65536) (p + 4)
    need (h / 2 ^ 24 == 1 + r.2) (badFormat (base + p))
    readRules w base ncols n (p + 4 + 4 * (h % 65536)) (rs ++ [r.1]) (deps ++ [h / 2 ^ 24])

/-- The rows (R289). -/
def readRows (w : Nat → Except GFail Nat) (base ncols lim : Nat) (deps : List Nat) :
    Nat → Nat → Except GFail (List (List Nat) × Nat)
  | 0, p => .ok ([], p)
  | n + 1, p => do
    let h ← w p
    need (h / 65536 == 0) (badFormat (base + p))
    let r ← readSyms w base ncols lim deps (h % 65536) (p + 4)
    let t ← readRows w base ncols lim deps n (p + 4 + 4 * (h % 65536))
    .ok (r.1 :: t.1, t.2)

def spansMeet (a b : Nat × Nat) : Bool := a.1 < b.1 + b.2 && b.1 < a.1 + a.2 && 0 < a.2 && 0 < b.2

/-- Reserved words of a header. -/
def zeroWords (w : Nat → Except GFail Nat) (base : Nat) : List Nat → Except GFail Unit
  | [] => .ok ()
  | o :: l => do
    let v ← w o
    need (v == 0) (badFormat (base + o))
    zeroWords w base l

/-- The codebook, word by word. -/
def readBook (w : Nat → Except GFail Nat) (off : Nat) : List Nat → Except GFail (List Nat)
  | [] => .ok []
  | k :: l => do
    let v ← w (off + 4 * k)
    let r ← readBook w off l
    .ok (v % 65536 :: v / 65536 :: r)

/-- Checks and reads a block in the order of R291; `cols` is E0 of the matrix. -/
def readBlock (rd : Nat → Except GFail Nat) (cols : Nat) (b : Band) (blk : Nat × Nat) : Except GFail GBlock := do
  let base := blk.1
  let w := fun o => blockWord rd base blk.2 o 0
  let row0 ← w 0
  need (row0 == b.row0) (badFormat base)
  let nn ← w 4
  let ncols := nn / 65536
  need (nn % 65536 == b.nrows && 1 ≤ ncols && ncols ≤ 4096) (badFormat (base + 4))
  let col0 ← w 8
  need (col0 + ncols ≤ cols) (badFormat (base + 8))
  let v ← w 12
  let nrules := v % 65536
  let maxd := v / 65536 % 256
  need (nrules ≤ 2048) (badFormat (base + 12))
  need (maxd ≤ 16) (.grammar cGrammarDepth (base + 12))
  need (v / 2 ^ 24 == 0) (badFormat (base + 12))
  let cboff ← w 16
  need (cboff % 64 == 0 && 64 ≤ cboff) (badFormat (base + 16))
  let rtoff ← w 20
  need (rtoff % 4 == 0) (badFormat (base + 20))
  let rtw ← w 24
  let wtoff ← w 28
  need (wtoff % 4 == 0) (badFormat (base + 28))
  let wtw ← w 32
  zeroWords w base [36, 40, 44, 48, 52, 56, 60]
  need (cboff + 512 ≤ blk.2) (badFormat (base + 16))
  need (rtoff + 4 * rtw ≤ blk.2 && !spansMeet (rtoff, 4 * rtw) (cboff, 512)) (badFormat (base + 20))
  need (wtoff + 4 * wtw ≤ blk.2 && !spansMeet (wtoff, 4 * wtw) (cboff, 512) && !spansMeet (wtoff, 4 * wtw) (rtoff, 4 * rtw))
    (badFormat (base + 28))
  let cb ← readBook w cboff (List.range 128)
  let r ← readRules (fun o => blockWord rd base blk.2 o 24) base ncols nrules rtoff [] []
  need (maxd == maxOf r.2.1) (badFormat (base + 12))
  need (r.2.2 == rtoff + 4 * rtw) (badFormat (base + 24))
  let t ← readRows (fun o => blockWord rd base blk.2 o 32) base ncols nrules r.2.1 b.nrows wtoff
  need (t.2 == wtoff + 4 * wtw) (badFormat (base + 32))
  .ok { cb := cb, col0 := col0, rules := r.1, rows := t.1 }

def readBlocks (rd : Nat → Except GFail Nat) (cols : Nat) (b : Band) : List (Nat × Nat) → Except GFail (List GBlock)
  | [] => .ok []
  | x :: l => do
    let g ← readBlock rd cols b x
    let r ← readBlocks rd cols b l
    .ok (g :: r)

/-! ## Evaluation (R294) -/

/-- The value of a symbol in one lane: xs gives x_b by column, rv the rules evaluated so far. -/
def symVal (cb : List Nat) (col0 : Nat) (xs : Nat → FVal) (rv : List FVal) (v : Nat) : FVal :=
  if v.testBit 31 then rv.getD (v % 2048) (.fin false 0 0)
  else
    let c := unpack fmtF16 (cb.getD (v % 256) 0)
    if fIsZero c then .fin false 0 0 else rne32 (fmul c (xs (col0 + v / 2 ^ 16 % 4096)))

def sumSyms (cb : List Nat) (col0 : Nat) (xs : Nat → FVal) (rv : List FVal) : List Nat → FVal
  | [] => .fin false 0 0
  | v :: l => l.foldl (fun a u => rne32 (fadd .rne a (symVal cb col0 xs rv u))) (symVal cb col0 xs rv v)

/-- The rule values of a block in one lane. -/
def ruleVals (g : GBlock) (xs : Nat → FVal) : List FVal :=
  g.rules.foldl (fun rv r => rv ++ [sumSyms g.cb g.col0 xs rv r]) []

/-- The row sums of a band in one lane, over its blocks in order. -/
def bandSums (gs : List GBlock) (nrows : Nat) (xs : Nat → FVal) : List FVal :=
  gs.foldl (fun acc g =>
    let rv := ruleVals g xs
    acc.mapIdx (fun j a => rne32 (fadd .rne a (sumSyms g.cb g.col0 xs rv (g.rows.getD j [])))))
    (List.replicate nrows (.fin false 0 0))

/-- Virtual runs of the input batch. -/
def batchReads (x : Desc) : List Rd := (List.range (x.e 1)).map (fun b => Rd.mk 1 x ⟨0, b, 0, 0⟩ (x.e 0))

/-- A block word as a claimant reads it. -/
def claimWord (s : State) (pages : List (Nat × Nat)) (va : Nat) : Except GFail Nat :=
  let pa := paOf pages va
  if s.badRead pa 4 then .error (.poison (pa / 64 * 64)) else .ok (s.mem.num pa 4)

def grammarFail (p : Top) (t : Nat) : GFail → TileFail
  | .grammar cz va =>
    { tile := t, status := 4, cause := cz, pos := 0, scale := false, dome := byteDome (paOf p.pages va), word1 := va / 4 * 4 }
  | .poison pa => poisonFail t ⟨0, pa, false⟩
  | .xlat cz va => { tile := t, status := 3, cause := cz, pos := 0, scale := false, dome := 0, word1 := va }

/-- The pieces that a band's evaluation reads: its blocks, then the input batch. -/
def bandSpans (p : Top) (b : Band) : List (Nat × Nat) :=
  b.blocks.flatMap (fun x => physPieces p.pages x.1 x.2) ++
    (readsPieces p.pages (batchReads p.ds2)).map (fun x => x.2.2)

/-- The pieces that a tile of a T-op reads. -/
def readSpans (p : Top) (t : Nat) : List (Nat × Nat) :=
  if p.op == opTGV then ((p.bands[t]?).map (bandSpans p)).getD [] else (tileSpans p t).map (fun x => x.2.2)

/-- Tile t of a TGV, evaluated by a claimant (R294, R297). -/
def runBand (s : State) (p : Top) (t : Nat) (who : Claimant) : Option TileRun :=
  match p.bands[t]? with
  | none => none
  | some b =>
    let xp := readsPieces p.pages (batchReads p.ds2)
    if (bandSpans p b).any (fun x => s.mustWait (whoClaim who true) x.1 x.2) then none
    else
      match readBlocks (claimWord s p.pages) (p.ds1.e 0) b b.blocks with
      | .error f => some (.read who s.now [] 0 (some (grammarFail p t f)))
      | .ok gs =>
        match Met.min ((xp.filter (fun x => s.badRead x.2.2.1 x.2.2.2)).map (fun x => ⟨1, x.2.2.1 / 64 * 64, false⟩)) with
        | some m => some (.read who s.now [] 0 (some (poisonFail t m)))
        | none =>
          let r := memNow s p
          let lane := fun k => bandSums gs b.nrows (fun c => r.val p.ds2 ⟨c, k, 0, 0⟩)
          some (.read who s.now ((List.range (p.ds2.e 1)).flatMap (fun k => (lane k).mapIdx (fun j v =>
            (paOf p.pages (p.dd.elemVa ⟨b.row0 + j, k, 0, 0⟩),
             toBytes (rnd v (floatFmt p.dd.ty) (rmode (p.aux.setWidth 2))) p.dd.esz)))) 0 none)

/-! ## The rule unit (R300, R301) -/

def Pair.ruleVal (k : Pair) (i l : Nat) : FVal := unpack fmtF32 (lookD k.rv (16 * i + l) 0).toNat
def Pair.accVal (k : Pair) (l : Nat) : FVal := unpack fmtF32 (lookD k.racc l 0).toNat
def laneWord (v : FVal) : BitVec 32 := BitVec.ofNat 32 (rnd v fmtF32 .rne)

/-- The rule unit after one symbol: accumulator, child depth, and the entry stored; or the cause of its fault. -/
def ruleStep (k : Pair) (first last : Bool) (a b : V512) : Except (BitVec 8) (List FVal × Nat × Option (Nat × Nat)) :=
  let n := b.toNat
  let sy := fieldAt n 0 4
  let e := fieldAt n 8 2
  let d := fieldAt n 10 1
  let nt := sy.testBit 31
  if fieldAt n 6 2 != 0 || n / 2 ^ 88 != 0 || sy / 2 ^ 28 % 8 != 0 || sy / 2 ^ 11 % 32 != 0 ||
      (if nt then sy / 2 ^ 16 % 4096 != 0 else sy / 2 ^ 8 % 8 != 0) || 2048 < e then .error cGrammarFormat
  else if nt && e ≤ sy % 2048 then .error cGrammarOrder
  else
    let c := unpack fmtF16 (fieldAt n 4 2)
    let t := fun l =>
      if nt then k.ruleVal (sy % 2048) l
      else if fIsZero c then .fin false 0 0 else rne32 (fmul c (unpack fmtF32 (getLane 4 a l)))
    let kd := if nt then (lookD k.dep (sy % 2048) 0).toNat else 0
    let acc := (List.range 16).map (fun l => if first then t l else rne32 (fadd .rne (k.accVal l) (t l)))
    let mx := if first then kd else max k.rmax.toNat kd
    if last && e < 2048 then
      (if 16 < d then .error cGrammarDepth
       else if d != 1 + mx then .error cGrammarFormat
       else .ok (acc, mx, some (e, d)))
    else .ok (acc, mx, none)

/-- The rule unit takes a step's results. -/
def ruleCommit (k : Pair) (r : List FVal × Nat × Option (Nat × Nat)) : Pair :=
  let k := { k with racc := r.1.zipIdx.map (fun x => (x.2, laneWord x.1)), rmax := BitVec.ofNat 32 r.2.1 }
  match r.2.2 with
  | none => k
  | some (e, d) =>
    { k with rv := r.1.zipIdx.foldl (fun l x => put l (16 * e + x.2) (laneWord x.1)) k.rv,
             dep := put k.dep e (BitVec.ofNat 8 d) }

/-- VRULE (R301). -/
def execVrule (p : Pre) (f : FmtV2) (s : State) : Out :=
  .next (runSlot p (fun s =>
    { lane := 4, srcs := [.v ⟨f.va, f.pa, f.ty⟩, .v ⟨f.vb, f.pb, f.ty⟩],
      act := fun vs =>
        let n := pairOf s.cur.agent
        match ruleStep (s.pair n) (f.aux.getLsbD 0) (f.aux.getLsbD 1) (vs.getD 0 0) (vs.getD 1 0) with
        | .error cz => Act.trap cz FRec.none
        | .ok r =>
          let act := pushV s f.vd 4 (maskLanes 4 (maskOf p s) (fun l => (laneWord (r.1.getD l .nan)).toNat))
          { act with commit := fun ids s' => (act.commit ids s').modPair n (fun k => ruleCommit k r) },
      outs := [if f.vd.toNat == 1663 then ⟨.x, 63⟩ else ⟨.v, f.vd.toNat⟩] }) s)

end Sys2Proof.Machine
end

