-- ==== Sys2Proof/Machine/Translate.lean ====
section
/-! DEFINITION. Translation: the two TLBs, XLAT, HREL and HTEST, fills, leases and recalls (R331 to R340). -/

namespace Sys2Proof.Machine

/-! ## The TLBs (R334) -/

def TlbEntry.covers (e : TlbEntry) (va : Nat) : Bool := e.vpn == va / pageSize e.large

def tlbFind (l : List TlbEntry) (va : Nat) : Option TlbEntry := l.find? (fun e => e.covers va)

/-- A first-level TLB takes an entry as its most recent; of 384 the least recent goes. -/
def tlbUse (l : List TlbEntry) (e : TlbEntry) : List TlbEntry :=
  (e :: l.filter (fun x => !(x.vpn == e.vpn && x.large == e.large))).take 384

/-- Set of the second-level TLB: virtual page number mod 1,024, large pages by VA bits [34:25]. -/
def tlbSet (e : TlbEntry) : Nat := e.vpn % 1024

/-- A second-level TLB takes an entry: where its set holds 8 ways, the least recent unpinned way goes; a set of 8 pinned
ways takes none. -/
def tlb2Use (l : List TlbEntry) (e : TlbEntry) : List TlbEntry :=
  let l := l.filter (fun x => !(x.vpn == e.vpn && x.large == e.large))
  let set := l.filter (fun x => tlbSet x == tlbSet e)
  if set.length < 8 then e :: l
  else
    match set.reverse.find? (fun x => !x.pinned) with
    | some v => e :: l.filter (fun x => !(x.vpn == v.vpn && x.large == v.large))
    | none => l

/-! ## XLAT, HREL, HTEST -/

def badHandle (cz : BitVec 8) (va : Nat) (large : Bool) : Handle :=
  { valid := false, cause := cz, va := va / pageSize large * pageSize large, pa := 0, large := large, read := false,
    write := false }

def goodHandle (va : Nat) (e : TlbEntry) : Handle :=
  { valid := true, cause := 0, va := va / pageSize e.large * pageSize e.large, pa := e.pa, large := e.large,
    read := e.read, write := e.write }

/-- A handle made from an entry: one of the other page size is PAGE_FAULT (R335). -/
def handleFrom (va : Nat) (large : Bool) (e : TlbEntry) : Handle :=
  if e.large == large then goodHandle va e else badHandle 0x0F va large

/-- A walk for a core would meet a moving page: the handle then stays due, in open mode too (R341). -/
def walkMoves (s : State) (c va : Nat) : Bool :=
  (tlbFind (s.cluster (c / 8)).tlb va).isNone && (s.walk va).any (fun l => l.moving)

/-- XLAT (R335). -/
def execXlat (p : Pre) (f : FmtCT) (s : State) : Out :=
  .next (runSlot p (fun s =>
    { lane := 0, srcs := [.x f.xa.toNat f.pa],
      act := fun vs =>
        let v := (toX (vs.getD 0 0)).toNat
        let c := coreOf s.cur.agent
        let n := f.h.toNat
        if 2 ^ 56 ≤ v then Act.reg p.pos (s.at + 16) (.handle n (badHandle 0x0F (v % 2 ^ 56) f.lg))
        else
          match tlbFind (s.core c).tlb v with
          | some e =>
            Act.eff (fun s' =>
              scheduleNow (s'.modCore c (fun k => { k with tlb := tlbUse k.tlb e })) p.pos (s.at + 16)
                (.handle n (handleFrom v f.lg e)))
          | none =>
            Act.eff (fun s' =>
              let det := (s.core c).detMode
              let r := s'.freshId
              let w : PendWr :=
                { id := r.1, due := s.at + 16, wr := .handle n (badHandle cTlbMiss v f.lg), ready := !det && !walkMoves s c v,
                  ser := s.serial, slot := p.pos, fill := some r.1 }
              (schedule r.2 (.core c) w).modCore c (fun k =>
                { k with fills := k.fills ++
                           [{ id := r.1, va := v, large := f.lg, start := s.at, since := s.now, reg := n, pendId := r.1 }],
                         noLeaf := k.noLeaf.filter (· != (v / pageSize f.lg, f.lg)) })) }) s)

/-- HREL (R337). -/
def execHrel (p : Pre) (f : FmtCT) (s : State) : Out :=
  .next (runSlot p (fun s =>
    { lane := 0, srcs := [], act := fun _ => Act.reg p.pos (s.at + 1) (.handle f.h.toNat Handle.none) }) s)

/-- HTEST (R337). -/
def execHtest (p : Pre) (f : FmtCT) (s : State) : Out :=
  .next (runSlot p (fun s =>
    { lane := 0, srcs := [],
      act := fun _ => Act.reg p.pos (s.at + 1)
        (.pred f.pd.toNat (flagAll ((s.core (coreOf s.cur.agent)).handle f.h.toNat).valid)) }) s)

/-! ## Fills (R334 to R336, R339) -/

/-- Changes the pending write that a fill is for, also where the snapshot keeps it (R379). -/
def modFill (f : Fill) (g : PendWr → PendWr) (k : Core) : Core :=
  let one := fun w : PendWr => if w.id == f.pendId then g w else w
  { k with seq := { k.seq with pend := k.seq.pend.map one }
           snap := k.snap.map (fun x => { x with pendRegs := x.pendRegs.map one }) }

/-- The value of a pending handle write whose fill has ended; an open-mode handle that landed with the miss changes too. -/
def fillResult (s : State) (c : Nat) (f : Fill) (h : Handle) (always : Bool) : State :=
  s.modCore c (fun k =>
    let old := badHandle cTlbMiss f.va f.large
    let inPend := k.seq.pend.any (fun w => w.id == f.pendId)
    { modFill f (fun w => if always || !w.ready then { w with wr := .handle f.reg h, ready := true } else w) k with
      handles := if always && !inPend && k.handle f.reg == old then put k.handles f.reg h else k.handles })

def dropFill (s : State) (c id : Nat) : State :=
  s.modCore c (fun k => { k with fills := k.fills.filter (fun f => f.id != id) })

/-- The leases of a page as one more is granted: a cluster holds one, pinned once it has been pinned. -/
def addLease (ls : List Lease) (pa : Nat) (large : Bool) (cl : Nat) (pinned : Bool) (now : Nat) : List Lease :=
  ls.filter (fun l => !(l.page == pa && l.cluster == cl)) ++
    [{ page := pa, large := large, cluster := cl,
       pinned := pinned || ls.any (fun l => l.page == pa && l.cluster == cl && l.pinned), granted := now }]

/-- A lease of a page for a cluster (R339): dome pages take one from their dome, peer pages from a home of the peer panel. -/
def grantLease (s : State) (pa : Nat) (large : Bool) (cl : Nat) (pinned : Bool) : State :=
  match paClass pa with
  | 0 => s.modDome (domeOf pa) (fun k => { k with leases := addLease k.leases pa large cl pinned s.now })
  | 14 => { s with peerLeases := addLease s.peerLeases pa large cl pinned s.now }
  | _ => s

def inPage (pg : Nat) (large : Bool) (pa : Nat) : Bool := pg ≤ pa && pa < pg + pageSize large

/-- A recall of the page, or of a page that it lies in, is under way, so that no lease on it is granted. -/
def recallOver (s : State) (pa : Nat) : Bool := s.recalls.any (fun r => inPage r.page r.large pa)

def leafEntry (va : Nat) (l : Leaf) (pinned : Bool) : TlbEntry :=
  { vpn := va / pageSize l.large, large := l.large, pa := l.pa, read := l.read, write := l.write, pinned := pinned }

/-- A fill has its entry: the first level takes it, a deterministic handle lands from it. -/
def fillDone (s : State) (c : Nat) (f : Fill) (e : TlbEntry) : State :=
  let s := s.modCore c (fun k => { k with tlb := tlbUse k.tlb { e with pinned := false } })
  dropFill (fillResult s c f (handleFrom f.va f.large e) false) c f.id

/-- A walk found no valid leaf (R335, R336, R358). -/
def fillNoLeaf (s : State) (c : Nat) (f : Fill) (slot : Pos) : State :=
  let s := dropFill (fillResult s c f (badHandle 0x0F f.va f.large) true) c f.id
  let s := s.modCore c (fun k => { k with noLeaf := (f.va / pageSize f.large, f.large) :: k.noLeaf })
  if (s.core c).detMode then
    laterFault s c { slot := slot, cause := cNondet,
                     frec := frecAccess slot (f.va / pageSize f.large * pageSize f.large) 0 false false }
  else s

/-- A walk has found a leaf for a cluster (R334, R339, R341): the second level takes the entry and a lease is granted, unless the
walk waits for a moving page, a recall of the page, an eviction from a full lease table, or the link to the page's home (R404; DESIGN
CHOICE: the spec says what an access meets there, not what a fill does). -/
def walkFill (s : State) (cl va : Nat) (l : Leaf) : Bool × State :=
  if l.moving || recallOver s l.pa || (paClass l.pa == 14 && !peerUp s l.pa) then (false, s)
  else if paClass l.pa == 0 && 32768 ≤ (s.dome (domeOf l.pa)).leases.length then
    (match (s.dome (domeOf l.pa)).leases.find? (fun x => !x.pinned) with
     | some v => (false, evictLease v s)
     | none => (false, s))
  else
    let s := grantLease s l.pa l.large cl false
    (true, s.setCluster cl { s.cluster cl with tlb := tlb2Use (s.cluster cl).tlb (leafEntry va l false) })

/-- A second-level entry that is used becomes its set's most recent. -/
def tlb2Touch (s : State) (cl : Nat) (e : TlbEntry) : State :=
  s.setCluster cl { s.cluster cl with
    tlb := e :: (s.cluster cl).tlb.filter (fun x => !(x.vpn == e.vpn && x.large == e.large)) }

/-- The handle of a walk that waits for a moving page stays due (R341). -/
def keepDue (s : State) (c : Nat) (f : Fill) : State :=
  s.modCore c (modFill f (fun w => { w with ready := false }))

/-- TLB_FILL_LANDS (R334, R335, R339): 12 cycles from the second level; a walk ends within 1,000 where nothing makes it wait. -/
def tlbFillLands (c n : Nat) (s : State) : State :=
  match (s.core c).fills.find? (fun f => f.id == n) with
  | none => s
  | some f =>
    if s.now < f.since + 12 then s
    else
      let cl := c / 8
      match tlbFind (s.cluster cl).tlb f.va with
      | some e => fillDone (tlb2Touch s cl e) c f e
      | none =>
        let slot := match (s.core c).seq.pend.find? (fun w => w.id == n) with | some w => w.slot | none => Pos.ca
        match s.walk f.va with
        | none => fillNoLeaf s c f slot
        | some l =>
          if l.moving then keepDue s c f
          else
            let r := walkFill s cl f.va l
            if r.1 then fillDone r.2 c f (leafEntry f.va l false) else r.2
def execTlbFillLands (c k : Nat) (s : State) : Out := .next (tlbFillLands c k s)

/-- A fill that must land before the clock goes on: at its twelfth cycle from the second level, at its thousandth from a walk,
unless it waits (R334). -/
def fillDue (s : State) (c : Nat) (f : Fill) : Bool :=
  (if (tlbFind (s.cluster (c / 8)).tlb f.va).isSome then f.since + 12 ≤ s.now else f.since + 1000 ≤ s.now) &&
    !((tlbFillLands c f.id s).core c).fills.contains f

/-! ## Recalls (R340) -/

def recallHandle (pg : Nat) (h : Handle) : Handle :=
  if h.valid && h.pa == pg then { h with valid := false, cause := cLeaseRecalled } else h

def recallWr (pg : Nat) (w : PendWr) : PendWr :=
  match w.wr with
  | .handle n h => { w with wr := .handle n (recallHandle pg h) }
  | _ => w

def recallRun (pg : Nat) (r : CopyRun) : CopyRun := if r.pages.contains pg then { r with recalled := true } else r

/-- What a recall clears in one core: first-level entries, handles as they stand, on their way and kept by the mark, and
copy commands; a core whose gated store buffer holds a store to the page takes LEASE_RECALLED at its next boundary. -/
def recallHandles (pg : Nat) (l : List (Nat × Handle)) : List (Nat × Handle) := l.map (fun x => (x.1, recallHandle pg x.2))

def recallEngine (pg : Nat) (x : CopyEngine) : CopyEngine := { x with queue := x.queue.map (recallRun pg) }

/-- LEASE_RECALLED of a gated store: its address, and that it writes (R340, R377). An overflow SPILL has no virtual address here, and
its record holds 0 in its place (DESIGN CHOICE). -/
def recallRec (x : Access) : SlotFault :=
  { slot := x.slot, cause := cLeaseRecalled, frec := frecAccess x.slot (x.va.getD 0) x.pa false true }

def recallCore (pg : Nat) (large : Bool) (k0 : Core) : Core :=
  let k := { k0 with tlb := k0.tlb.filter (fun e => e.pa != pg)
                     handles := recallHandles pg k0.handles
                     seq := { k0.seq with pend := k0.seq.pend.map (recallWr pg) } }
  let k := { k with snap := k.snap.map (fun x =>
                      { x with handles := recallHandles pg x.handles, pendRegs := x.pendRegs.map (recallWr pg) })
                    eng0 := recallEngine pg k.eng0
                    eng1 := recallEngine pg k.eng1 }
  match k.gated.find? (fun x => inPage pg large x.pa) with
  | none => k
  | some x =>
    if k.ackFaults.any (fun f => f.cause == cLeaseRecalled) then k
    else { k with ackFaults := k.ackFaults ++ [recallRec x] }

def clusterCores (cl : Nat) : List Nat := (List.range 8).map (fun i => cl * 8 + i)

/-- Clears a page in the cores of a cluster. -/
def recallIn (pg : Nat) (large : Bool) (cl : Nat) (l : List (Nat × Core)) : List (Nat × Core) :=
  l.map (fun x => if x.1 / 8 == cl then (x.1, recallCore pg large x.2) else x)

/-- Clears a page in a cluster, in the contexts saved there too (R250). -/
def clearPage (pg : Nat) (large : Bool) (cl : Nat) (s : State) : State :=
  let s := s.setCluster cl { s.cluster cl with tlb := (s.cluster cl).tlb.filter (fun e => e.pa != pg) }
  { s with cores := recallIn pg large cl s.cores
           contexts := s.contexts.map (fun x => (x.1, { x.2 with cores := recallIn pg large cl x.2.cores })) }

/-- An engine has writes of its present chunk to a page still to be performed (R246). -/
def engineOn (s : State) (c e pg : Nat) (large : Bool) : Bool :=
  (s.eng c e).left.any (fun o => o.group.any (fun p => inPage pg large p.1)) ||
    (chunkHeld s c e && (s.eng c e).queue.head?.any (fun r => r.pages.contains pg))

/-- A cluster, or a peer, gives its leases on a page back. -/
def dropLease (pg : Nat) (large : Bool) (cl : Nat) (s : State) : State :=
  let other := fun l : Lease => !((inPage pg large l.page || inPage l.page l.large pg) && l.cluster == cl)
  match paClass pg with
  | 0 => s.modDome (domeOf pg) (fun k => { k with leases := k.leases.filter other })
  | 14 => { s with peerLeases := s.peerLeases.filter other }
  | _ => s

/-- LEASE_RECALL (R340): a holding cluster clears the page, and acknowledges once its queued accesses to it are sent. -/
def leaseRecall (pg cl : Nat) (s : State) : State :=
  match s.recalls.find? (fun r => r.page == pg) with
  | none => s
  | some r =>
    if !r.holders.contains cl then s
    else
      let s := clearPage pg r.large cl s
      let busy := (clusterCores cl).any (fun c =>
        ((s.core c).ldq ++ (s.core c).stq).any (fun x => inPage pg r.large x.pa) ||
          engineOn s c 0 pg r.large || engineOn s c 1 pg r.large)
      if busy then s
      else
        dropLease pg r.large cl { s with recalls := s.recalls.map (fun x =>
          if x.page == pg then { x with holders := x.holders.filter (· != cl) } else x) }
def execLeaseRecall (pg cl : Nat) (s : State) : Out := .next (leaseRecall pg cl s)

/-- A T-op that has translated a page and is not reported holds its recall (R281). -/
def topHolds (s : State) (pg : Nat) (large : Bool) : Bool :=
  s.tops.any (fun t => t.2.stage != .reported && t.2.pages.any (fun p => inPage pg large p.2))

/-- A WAITV at a page that is not performed: a core waits for it, or its home keeps its watch (R231). -/
def waitvOn (s : State) (pg : Nat) (large : Bool) : Bool :=
  s.cores.any (fun x => (x.2.liveWaits.findSome? (waitvOf (fun y => inPage pg large y.pa))).isSome) ||
    (s.watchesAt pg).any (fun h => inPage pg large h.acc.pa && (match h.acc.src with | .command .. => false | _ => true))

/-- RECALL_COMPLETE (R340): every holder has acknowledged, every access sent before is performed. A peer that sent the recall is told
(R403). -/
def recallComplete (pg : Nat) (s : State) : State :=
  match s.recalls.find? (fun r => r.page == pg) with
  | none => s
  | some r =>
    if r.holders.isEmpty && !topHolds s pg r.large && !s.reqs.any (fun x => inPage pg r.large x.pa) && !waitvOn s pg r.large then
      { s with
        recalls := s.recalls.filter (fun x => x.page != pg)
        peerReps := s.peerReps ++ (if r.peer then [(peerSlot pg, some [])] else []) }
    else s
def execRecallComplete (pg : Nat) (s : State) : Out := .next (recallComplete pg s)

end Sys2Proof.Machine
end

