-- ==== Sys2Proof/Machine/Tops.lean ====
section
/-! DEFINITION. T-ops: the slot forms (R257 to R259, R292), TWHERE and TWAIT (R276, R277), placement, acceptance, claims,
completion and report (R259, R267 to R282). -/

namespace Sys2Proof.Machine

/-! ## Issue -/

/-- A d register as a T-op reads it: its bytes, or the address that left it poisoned (R385). -/
def descReg (k : Core) (n : BitVec 4) : V512 × Option Nat := lookD k.descs n.toNat (0, none)

/-- The address of the first poisoned descriptor that a form names. -/
def descPoison (k : Core) (f : FmtMT) (two : Bool) : Option Nat :=
  ((descReg k f.dd).2.orElse (fun _ => (descReg k f.ds1).2)).orElse (fun _ => if two then (descReg k f.ds2).2 else none)

def isCollective (op : Nat) : Bool := 0x20 ≤ op

/-- A T-op as it stands right after issue. -/
def Top.fresh (op : Nat) (aux : BitVec 8) (from_ : TopFrom) (tag : BitVec 16) (spire vcc : Nat) (det : Bool) (ser : Nat)
    (dd a b : Desc) (launch : Option Nat) : Top :=
  { op := op, aux := aux, from_ := from_, tag := tag, spire := spire, vcc := vcc, detMode := det, ser := ser, dd := dd,
    ds1 := a, ds2 := b, stage := .issued, pages := [], home := 0, rise := false, nt := 0, deadline := 0, bands := [],
    taken := [], claimed := [], ended := 0, fails := [], nfail := 0, under := 0, port := aux.toNat / 4 % 16, stepNo := 0,
    retries := 0, contrib := [], result := none, agree := false, arrived := 0, launch := launch, since := 0, far := 0, ttile := 0,
    acc := none }

/-- A TBCAST sends data where the switch marks this panel's rank as its root. The spec gives the mark no place at issue, where the
deadline needs it: it is free, and the step must agree with it (R407, R409; DESIGN CHOICE). -/
def withRoot (t : Top) (s : State) : Top × State :=
  if t.op == 0x22 then ({ t with sends := s.draw.1.getLsbD 0 }, s.draw.2) else (t, s)

/-! ## Translation (R259, R338) -/

/-- Granules of a translation that fails at one of them: those before it, and its own where a leaf maps it (R281). -/
def pagesUpTo (s : State) (g : Nat) (pages : List (Nat × Nat)) : List (Nat × Nat) :=
  match s.topLeaf g with
  | some l => put pages g (granulePa l g)
  | none => pages

/-- Translates the granules of an operand's runs; the first that fails gives its cause and page, with the granules translated. -/
def grabPages (s : State) (rd wr : Bool) : List Nat → List (Nat × Nat) → Except (BitVec 8 × Nat × List (Nat × Nat)) (List (Nat × Nat))
  | [], pages => .ok pages
  | g :: l, pages =>
    match s.topPage g rd wr with
    | .error (cz, va) => .error (cz, va, pagesUpTo s g pages)
    | .ok leaf => grabPages s rd wr l (put pages g (granulePa leaf g))

/-- The granules of the operands that are mapped to memory a T-op may use, whatever their permissions (R277). -/
def mappedPages (s : State) : List Nat → List (Nat × Nat) → List (Nat × Nat)
  | [], pages => pages
  | g :: l, pages =>
    match s.topPage g false false with
    | .error _ => mappedPages s l pages
    | .ok leaf => mappedPages s l (put pages g (granulePa leaf g))

def runGranules (runs : List (Nat × Nat × Bool)) : List Nat :=
  (runs.flatMap (fun r => (granules r.1 r.2.1).map (·.1))).eraseDups

/-- An operand with its byte ranges: for TGV ds1 its grammar blocks. -/
def operandRuns (op : Nat) (bs : List Band) (pos : Nat) (d : Desc) : List (Nat × Nat × Bool) :=
  if op == opTGV && pos == 0 then bandRuns bs else d.runs

/-- Every operand of a T-op, in the order of R267 with dd last. -/
def allOps (op : Nat) (dd a b : Desc) : List (Nat × Desc) :=
  (sourcesOf op a b).zipIdx.map (fun x => (x.2, x.1)) ++ [(2, dd)]

/-- Translates every operand; a failure names the operand position (R259, R338). -/
def grabAll (s : State) (op : Nat) (aux : BitVec 8) (bs : List Band) :
    List (Nat × Desc) → List (Nat × Nat) → Except (Nat × BitVec 8 × Nat × List (Nat × Nat)) (List (Nat × Nat))
  | [], pages => .ok pages
  | (pos, d) :: l, pages =>
    match grabPages s (pos != 2 || (op == opTMM && aux.getLsbD 3)) (pos == 2) (runGranules (operandRuns op bs pos d)) pages with
    | .error e => .error (pos, e)
    | .ok pages' => grabAll s op aux bs l pages'

/-- The table of an SLG operand as far as its own count says, and its granules that are mapped: the placement unit has
translated them, whatever it then finds there (R281, R285). -/
def tableSize (s : State) (a : Desc) : Nat :=
  match tableWord s a.grammar with
  | .ok n => if n ≤ 4096 then 16 + 24 * n else 16
  | .error _ => 16
def tablePages (s : State) (a : Desc) : List (Nat × Nat) :=
  mappedPages s (runGranules [(a.grammar, tableSize s a, false)]) []

/-! ## The plan of a T-op (R259, R267, R275, R285, R296) -/

/-- The bytes of each counted operand by site. -/
def sitesOf (op : Nat) (dd a b : Desc) (bs : List Band) (pages : List (Nat × Nat)) : List (Nat × List (Nat × Nat)) :=
  (countedOps op dd a b).map (fun x => (x.1, siteBytes pages (operandRuns op bs x.1 x.2)))

/-- Ttab of R296: the path from the issuing spire to the table's first byte. -/
def ttabOf (s : State) (op spire : Nat) (a : Desc) : Nat :=
  if op != opTGV then 0
  else
    let d := match s.topLeaf (a.grammar / 65536) with
      | some l => pathCost s.fw.bands (spireSite spire) (domeSite (byteDome l.pa))
      | none => 0
    2 * (2 * d + 120) + 385

/-- Tiles of a T-op and the largest tile's bytes and steps (R275, R296). -/
def tileFacts (op : Nat) (aux : BitVec 8) (dd a b : Desc) (bs : List Band) : Nat × Nat × Nat :=
  if op == opTGV then (bs.length, (bandCost dd b bs).1, (bandCost dd b bs).2)
  else (tileCount op dd, tileCost op aux dd a b 0, tileElems op dd 0 * workFactor op a)

/-- A T-op that executes nothing ends at its deadline (R259, R270, R285). -/
def failTop (t : Top) (ttab : Nat) (pages : List (Nat × Nat)) (f : TileFail) (nfail : Nat) : Top :=
  { t with stage := .done, pages := pages, deadline := t.vcc + 32 + ttab, fails := [f], nfail := nfail }

def startFail (st : Nat) (cz : BitVec 8) (pos dome word1 : Nat) : TileFail :=
  { tile := 0, status := st, cause := cz, pos := pos, scale := false, dome := dome, word1 := word1 }

/-- A T-op as its placement leaves it, once its table, if any, is read. -/
def placed (s : State) (t : Top) (bs : List Band) : Top :=
  let ttab := ttabOf s t.op t.spire t.ds1
  let tp := if t.op == opTGV then tablePages s t.ds1 else []
  match grabAll s t.op t.aux bs (allOps t.op t.dd t.ds1 t.ds2) tp with
  | .error (pos, cz, va, ps) => failTop t ttab ps (startFail 3 cz pos 0 va) 1
  | .ok pages =>
    let pl := place s t.op t.dd t.ds1 (sitesOf t.op t.dd t.ds1 t.ds2 bs pages)
    let tf := tileFacts t.op t.aux t.dd t.ds1 t.ds2 bs
    let t := { t with home := pl.home, rise := pl.rise, nt := tf.1, bands := bs, pages := pages, arrived := s.now,
                      far := tfar pl, ttile := tileTime s t.op t.ds1 pl tf.2.1 tf.2.2 }
    if pl.noexec then failTop t ttab pages (startFail 5 cPlacedFault 0 pl.home 0) tf.1
    else
      { t with stage := .waiting,
               deadline := t.vcc + 32 + ttab + tfar pl + texec s t.op t.ds1 pl tf.1 tf.2.1 tf.2.2 }

/-- A collective placed at its port dome (R406, R409). -/
def placedCollective (s : State) (t : Top) : Top :=
  match grabAll s t.op 0 [] [(0, t.ds1), (2, t.dd)] [] with
  | .error (pos, cz, va, ps) => failTop t 0 ps (startFail 3 cz pos 0 va) 1
  | .ok pages =>
    let e := chimeDome t.port
    let out := siteBytes pages t.ds1.runs
    let inn := siteBytes pages t.dd.runs
    let far := (out ++ (if t.dd.alias_ t.ds1 then [] else inn)).filter (fun x => x.1 != e)
    let pl : Plan1 := { home := e, rise := false, noexec := false, big := 0, far := bytesOf far, total := 0,
                        dmax := maxOf (far.map (fun x => pathCost s.fw.bands (domeSite x.1) (domeSite e))) }
    let up := fun x => 2 * ((x + 511) / 512)
    { t with home := e, pages := pages, stage := .waiting, nt := 1, arrived := s.now, far := tfar pl,
             deadline := t.vcc + 32 + tfar pl + 4 * 960 + up (if t.sends then bytesOf out else 0) + up (bytesOf inn) }

/-- The table of a TGV as the placement unit reads it. -/
def readTable (s : State) (t : Top) : Except GFail (List Band) :=
  if t.op == opTGV then parseTable (tableWord s) t.ds1.grammar (t.ds1.e 1) else .ok []

/-- A T-op as its placement leaves it. -/
def planTop (s : State) (t : Top) : Top :=
  let ttab := ttabOf s t.op t.spire t.ds1
  let tp := tablePages s t.ds1
  if isCollective t.op then placedCollective s t
  else
    match readTable s t with
    | .ok bs => placed s t bs
    | .error (.xlat cz va) => failTop t ttab tp (startFail 3 cz 0 0 va) 1
    | .error (.poison pa) => failTop t ttab tp (startFail 1 cPlacedFault 0 (byteDome pa) pa) 1
    | .error (.grammar cz va) => failTop t ttab tp (startFail 4 cz 0 (byteDome (paOf (mappedPages s [va / 65536] []) va)) va) 1

/-! ## Issue (R257, R259, R261) -/

/-- The bytes of D at issue, by virtual address (R261): what earlier stores of the core write to it counts, performed or not
(R225). None where an atomic before it is not performed, or D is not mapped: D is then read with the tile (DESIGN CHOICE). -/
def accBytes (s : State) (own : List Access) (loc : List LocalSt) (dd : Desc) : Option Memory :=
  let vas := dd.runs.flatMap (fun r => (List.range r.2.1).map (fun i => r.1 + i))
  let at_ := fun v => (s.topLeaf (v / 65536)).map (fun l => granulePa l (v / 65536) + v % 65536)
  let over_ := fun x : Access => vas.any (fun v => (at_ v).any (fun a => x.pa ≤ a && a < x.pa + x.size))
  if vas.any (fun v => (at_ v).isNone) || own.any (fun x => x.kind != .store && over_ x) then none
  else
    let m := own.foldl (fun m x => m.write x.pa (toBytes x.data.toNat x.size)) s.mem
    let m := loc.foldl (fun m x => m.write x.addr x.bytes) m
    some (vas.foldl (fun r v => r.set v (m.get ((at_ v).getD 0))) [])

/-- What a core has stored before a bundle and not yet performed. -/
def ownStores (k : Core) (ser : Nat) : List Access :=
  (k.out ++ k.stq ++ k.gated).filter (fun x => isStoreKind x.kind && x.ser < 2 * ser)
def ownLocal (k : Core) (ser : Nat) : List LocalSt := k.seq.stores.filter (fun x => x.ser < ser)

/-- A T-op at issue has the deadline that its placement gives, D's bytes, and the cycle of its acceptance. -/
def atIssue (s : State) (own : List Access) (loc : List LocalSt) (t : Top) : Top :=
  { t with deadline := (planTop s t).deadline, since := s.now,
           acc := if t.op == opTMM && t.aux.getLsbD 3 then accBytes s own loc t.dd else none }

/-- The descriptors of a form, none where one breaks R254; an unnamed ds2 reads as ds1. -/
def descsOf (k : Core) (f : FmtMT) (two : Bool) : Option Desc × Option Desc × Option Desc :=
  (descOf (descReg k f.dd).1, descOf (descReg k f.ds1).1, descOf (descReg k (if two then f.ds2 else f.ds1)).1)

/-- A T-op or collective slot (R257, R259): its descriptors are read and checked, the tag is due at c + 1. -/
def topAct (s : State) (p : Pre) (f : FmtMT) (op : Nat) (check : Option Desc → Option Desc → Option Desc → Option (BitVec 8)) :
    Act :=
  let c := coreOf s.cur.agent
  let k := s.core c
  let two := twoSource op
  match descPoison k f two with
  | some pa => Act.trap cAccError (frecPoison p.pos pa)
  | none =>
    let ds := descsOf k f two
    match check ds.1 ds.2.1 ds.2.2, ds with
    | some cz, _ => Act.trap cz FRec.none
    | none, (some dd, some a, some b) =>
      let q := s.xq s.cur.agent f.xt.toNat
      { fault := none, dsts := [(q, s.at + 1)], wait := 32 ≤ k.tops.length + s.taken 6, take := [6],
        commit := fun ids s =>
          let r := s.freshId
          let tag := BitVec.ofNat 16 k.topNext
          let w := withRoot (Top.fresh op f.aux (.core c) tag (c / 64) s.at k.detMode s.serial dd a b k.launch) r.2
          let t := atIssue s (ownStores (s.core c) s.serial) (ownLocal (s.core c) s.serial) w.1
          let s := { w.2 with tops := put w.2.tops r.1 t }
          let s := s.modCore c (fun k => { k with topNext := (k.topNext + 1) % 2 ^ 16, tops := k.tops ++ [tag] })
          landEntry s s.cur.agent q (ids.headD 0) (BitVec.ofNat 512 tag.toNat) none }
    | none, _ => Act.trap causeIllegalField FRec.none

def runTop (op : Nat) (p : Pre) (f : FmtMT) (s : State) : State :=
  runSlot p (fun s =>
    { lane := 0, srcs := [], act := fun _ => topAct s p f op (topCheck op f.aux), outs := [s.xq s.cur.agent f.xt.toNat] }) s

/-- TADD (R260). -/
def execTadd (p : Pre) (f : FmtMT) (s : State) : Out := .next (runTop 0x10 p f s)
/-- TSUB (R260). -/
def execTsub (p : Pre) (f : FmtMT) (s : State) : Out := .next (runTop 0x11 p f s)
/-- TMUL (R260). -/
def execTmul (p : Pre) (f : FmtMT) (s : State) : Out := .next (runTop 0x12 p f s)
/-- TMAX (R260). -/
def execTmax (p : Pre) (f : FmtMT) (s : State) : Out := .next (runTop 0x13 p f s)
/-- TMIN (R260). -/
def execTmin (p : Pre) (f : FmtMT) (s : State) : Out := .next (runTop 0x14 p f s)
/-- TMM (R261). -/
def execTmm (p : Pre) (f : FmtMT) (s : State) : Out := .next (runTop opTMM p f s)
/-- TRED (R262). -/
def execTred (p : Pre) (f : FmtMT) (s : State) : Out := .next (runTop opTRED p f s)
/-- TCVT (R263). -/
def execTcvt (p : Pre) (f : FmtMT) (s : State) : Out := .next (runTop 0x17 p f s)
/-- TCOPY (R263). -/
def execTcopy (p : Pre) (f : FmtMT) (s : State) : Out := .next (runTop opTCOPY p f s)
/-- TSMAX (R264). -/
def execTsmax (p : Pre) (f : FmtMT) (s : State) : Out := .next (runTop opTSMAX p f s)
/-- TACT (R265). -/
def execTact (p : Pre) (f : FmtMT) (s : State) : Out := .next (runTop opTACT p f s)
/-- TGV (R292, R293). -/
def execTgv (p : Pre) (f : FmtMT) (s : State) : Out := .next (runTop opTGV p f s)

/-! ## Placement (R259, R267, R285, R296) -/

def storesDone (s : State) (c ser : Nat) : Bool :=
  !(s.unperformed (.core c)).any (fun y => isStoreKind y.kind && y.ser < 2 * ser) && !localPending s (.core c) 4 (2 * ser - 1)

/-- Whether the executors of a T-op may read: every store its core issued before it is performed (R225). -/
def issuerReady (s : State) (t : Top) : Bool :=
  match t.from_ with
  | .core c => (s.core c).launch != t.launch || storesDone s c t.ser
  | .command .. => true

def putTop (s : State) (n : Nat) (t : Top) : State := { s with tops := put s.tops n t }

/-- A T-op waits at its home's input, before those of higher core id that arrived in the same cycle (R273). -/
def issuerOrder (t : Top) : Nat := match t.from_ with | .core c => c | .command q _ => 10000 + q
def inputInsert (s : State) (t : Top) (n : Nat) (l : List Nat) : List Nat :=
  let later := fun m => match look s.tops m with
    | some u => u.arrived == t.arrived && issuerOrder t < issuerOrder u
    | none => false
  l.filter (fun m => !later m) ++ [n] ++ l.filter later

/-- The pages of a T-op's operands come through the second-level TLB of its issuer's cluster, with their leases (R259, R339); it
waits where a walk does. -/
def fetchPages (cl : Nat) : List Nat → State → Bool × State
  | [], s => (true, s)
  | g :: l, s =>
    match tlbFind (s.cluster cl).tlb (g * 65536), s.topLeaf g with
    | some e, _ => fetchPages cl l (tlb2Touch s cl e)
    | none, none => fetchPages cl l s
    | none, some lf =>
      let r := walkFill s cl (g * 65536) lf
      if r.1 then fetchPages cl l r.2 else r

/-- A T-op's granules are translated for its issuer: the firmware walks for a TOP command. -/
def fetchFor (t : Top) (gs : List Nat) (s : State) : Bool × State :=
  match t.from_ with
  | .core c => fetchPages (c / 8) gs s
  | .command .. => (!gs.any (fun g => (s.topLeaf g).any (fun l => l.moving)), s)

/-- The reads of pieces at their homes: activations and counts by block, and what a refused read leaves there (R208, R279,
R342). -/
def readsDone (s : State) (w : Who) (ps : List (Nat × Nat)) : State :=
  let blks := ((ps.filter (fun x => paClass x.1 == 0)).map (fun x => x.1 / 256 * 256)).eraseDups
  noteBads (blks.foldl (fun s b => touched s b 256 w) s) ((ps.filter (fun x => s.badRead x.1 x.2)).map (·.1))

/-- The pieces of a TGV's table, and the placement unit as their reader. -/
def tableSpans (s : State) (t : Top) : List (Nat × Nat) :=
  if t.op == opTGV then
    ((physPieces (tablePages s t.ds1) t.ds1.grammar (tableSize s t.ds1)).filter (fun x => homeKnown s x.1 x.2))
  else []
def whoPlace (t : Top) : Who := { kind := 3, idx := issuerOrder t, spire := some t.spire }

/-- The placed T-op goes to its home's input. -/
def enterTop (n : Nat) (t : Top) (s : State) : State :=
  let s := putTop s n t
  if t.stage == .waiting then s.modDome t.home (fun k => { k with input := inputInsert s t n k.input }) else s

/-- TOP_PLACEMENT (R259, R267, R406): a TGV's table is read once its issuer's stores are performed. -/
def topPlacement (n : Nat) (s : State) : State :=
  match look s.tops n with
  | none => s
  | some t =>
    let spans := tableSpans s t
    if t.stage != .issued || (t.op == opTGV && !issuerReady s t) || spans.any (fun x => s.mustWait (whoPlace t) x.1 x.2) then s
    else
      let bs := match readTable s t with | .ok bs => bs | .error _ => []
      let table := if t.op == opTGV then [(t.ds1.grammar, tableSize s t.ds1, false)] else []
      let r := fetchFor t (runGranules (table ++ (allOps t.op t.dd t.ds1 t.ds2).flatMap (fun x => operandRuns t.op bs x.1 x.2))) s
      if r.1 then enterTop n (planTop s t) (readsDone r.2 (whoPlace t) spans) else r.2
def execTopPlacement (t : Nat) (s : State) : Out := .next (topPlacement t s)

/-- A placement that must be made before the clock goes on, so that its home can take it in within its term of R275: it waits for
nothing. -/
def placementDue (s : State) (n : Nat) (t : Top) : Bool :=
  t.stage == .issued && t.since + 31 ≤ s.now && (look (topPlacement n s).tops n).any (fun u => u.stage != .issued)

/-! ## TWHERE (R277, R298) -/

/-- The placement word and Ttab. -/
def whereWord (s : State) (op spire : Nat) (dd a b : Desc) : Nat × Nat :=
  let word := fun bs =>
    let ops := countedOps op dd a b
    let gs := ops.flatMap (fun x => runGranules (operandRuns op bs x.1 x.2))
    let pages := mappedPages s gs []
    placeWord (place s op dd a (sitesOf op dd a b bs pages)) (gs.any (fun g => (look pages g).isNone))
  if op == opTGV then
    (match parseTable (tableWord s) a.grammar (a.e 1) with
     | .ok bs => (word bs, ttabOf s op spire a)
     | .error _ => (2 ^ 15, ttabOf s op spire a))
  else (word [], 0)

/-- TWHERE (R277): the checks of R259 for its target, and the placement word. -/
def execTwhere (p : Pre) (f : FmtMT) (s : State) : Out :=
  .next (runSlot p (fun s =>
    { lane := 0, srcs := [],
      act := fun _ =>
        let c := coreOf s.cur.agent
        let k := s.core c
        let op := f.aux.toNat % 128
        let two := twoSource op
        match descPoison k f two with
        | some pa => Act.trap cAccError (frecPoison p.pos pa)
        | none =>
          let ds := descsOf k f two
          if !two && f.ds2 != 0 then Act.trap causeIllegalField FRec.none
          else
            match topCheck op 0 ds.1 ds.2.1 ds.2.2, ds with
            | some cz, _ => Act.trap cz FRec.none
            | none, (some dd, some a, some b) =>
              let w := whereWord s op (c / 64) dd a b
              pushX s f.xt (32 + w.2) (BitVec.ofNat 64 w.1)
            | none, _ => Act.trap causeIllegalField FRec.none,
      outs := [s.xq s.cur.agent f.xt.toNat] }) s)

/-! ## The tile queue (R273) -/

/-- The bytes of an unscaled operand, element after element. -/
def denseBytes (m : Memory) (pages : List (Nat × Nat)) (d : Desc) : List Byte :=
  d.runs.flatMap (fun r => (physPieces pages r.1 r.2.1).flatMap (fun x => m.read x.1 x.2))

/-- A T-op leaves the tile queue of its home. -/
def leaveQueue (n : Nat) (t : Top) (s : State) : State :=
  s.modDome t.home (fun k => { k with tileQ := k.tileQ.filter (· != n) })

/-- The contribution of an accepted collective is read, once (R406). -/
def readContribution (n : Nat) (t : Top) (s : State) : State :=
  let pcs := t.ds1.runs.flatMap (fun r => physPieces t.pages r.1 r.2.1)
  let w : Who := { kind := 3, idx := chimeDome t.port, spire := none }
  if !t.contrib.isEmpty || !issuerReady s t || pcs.any (fun x => s.mustWait w x.1 x.2) then s
  else
    let s' := readsDone s w pcs
    match Met.min ((pcs.filter (fun x => s.badRead x.1 x.2)).map (fun x => ⟨0, x.1 / 64 * 64, false⟩)) with
    | some m => leaveQueue n t (putTop s' n { t with stage := .done, fails := [poisonFail 0 m], nfail := 1 })
    | none => putTop s' n { t with contrib := denseBytes s.mem t.pages t.ds1 }

/-- A collective that its port dome accepts takes the next step number of the port (R406). -/
def acceptStep (t : Top) (s : State) : Top × State :=
  let k := lookD s.fw.portStep t.port 0
  if isCollective t.op then ({ t with stepNo := k }, { s with fw := { s.fw with portStep := put s.fw.portStep t.port (k + 1) } })
  else (t, s)

/-- TOP_ACCEPT (R273, R406): the first T-op at a dome's input enters its tile queue where that has room, in a cycle after its arrival,
so that those that arrived with it are known; an accepted collective reads its contribution. -/
def topAccept (n : Nat) (s : State) : State :=
  match look s.tops n with
  | none => s
  | some t =>
    if t.stage == .queued && isCollective t.op then readContribution n t s
    else if t.stage != .waiting then s
    else
      let k := s.dome t.home
      if k.input.head? == some n && k.tileQ.length < 512 && t.arrived < s.now then
        let a := acceptStep t s
        (putTop a.2 n { a.1 with stage := .queued }).modDome t.home (fun k =>
          { k with input := k.input.drop 1, tileQ := k.tileQ ++ [n] })
      else s

/-- Whether a claimant executes a tile now: a lantern of a dome, or a pool core. -/
def claimantBusy (s : State) (d : Nat) (w : Claimant) : Bool :=
  s.tops.any (fun t => t.2.claimed.any (fun r =>
    match w with
    | .lantern _ => t.2.home == d && r.2.who == w
    | .pool _ => r.2.who == w))

/-- The place of a claimant among those of its class at a dome, and their number; none where it is not one. -/
def claimantPlace (s : State) (d : Nat) (w : Claimant) : Option (Nat × Nat) :=
  let l := match w with | .lantern _ => s.livePairs d | .pool _ => s.poolAt d
  let n := match w with | .lantern n => n | .pool c => c
  if l.contains n then some (l.idxOf n, l.length) else none

def isRise : Claimant → Bool
  | .lantern _ => false
  | .pool _ => true

/-- The ticket a claimant would take of an entry (R273). -/
def ticketFor (t : Top) (place count : Nat) : Option Nat :=
  ((List.range t.nt).filter (fun k => !t.taken.contains k && (!t.detMode || k % count == place))).head?

def runAny (s : State) (t : Top) (k : Nat) (w : Claimant) : Option TileRun :=
  if t.op == opTGV then runBand s t k w else runTile s t k w

/-- A claimed tile reads its operands, once its issuer's stores are performed and no home makes it wait. -/
def readTile (n k : Nat) (s : State) : State :=
  match look s.tops n with
  | none => s
  | some t =>
    match look t.claimed k with
    | none => s
    | some r0 =>
      match if issuerReady s t then runAny s t k r0.who else none with
      | none => s
      | some r => readsDone (putTop s n { t with claimed := put t.claimed k r }) (whoClaim r0.who true) (readSpans t k)

/-- The entry, its T-op and the ticket that a free claimant takes next: of the oldest entry of its class that has one. Home
tickets wait while a user lantern program runs at the dome (R308). With it the number of claimants of the class. -/
def nextTicket (s : State) (d : Nat) (w : Claimant) : Option (Nat × Top × Nat × Nat) :=
  match claimantPlace s d w with
  | none => none
  | some (place, count) =>
    if claimantBusy s d w || (!isRise w && (s.dome d).userPairs.isSome) then none
    else
      (s.dome d).tileQ.findSome? (fun n => (look s.tops n).bind (fun t =>
        if t.rise == isRise w && !isCollective t.op then (ticketFor t place count).map (fun k => (n, t, k, count)) else none))

/-- TILE_CLAIM (R273, R294, R308): a free claimant takes its ticket and executes the tile. -/
def tileClaim (d : Nat) (w : Claimant) (s : State) : State :=
  match nextTicket s d w with
  | none => s
  | some (n, t, k, _) =>
    let r : TileRun := { who := w, since := s.now, got := false, out := [], under := 0, fail := none }
    readTile n k (putTop s n { t with taken := t.taken ++ [k], claimed := t.claimed ++ [(k, r)] })
def execTileClaim (d : Nat) (w : Claimant) (s : State) : Out := .next (tileClaim d w s)

def execTopAccept (t : Nat) (s : State) : Out := .next (topAccept t s)

/-- The latest cycle of a claim (R274). A tile's place among its claimant's tickets is its ticket over the number of claimants, in
open mode too, where any claimant may take it (DESIGN CHOICE). -/
def claimBy (s : State) (d : Nat) (t : Top) (k count : Nat) : Nat :=
  let n := k / count
  max (t.since + 32 + t.far + n * t.ttile) (if t.rise then 0 else (s.dome d).haltAt + 1 + n * t.ttile)

/-- A claim that must be made before the clock goes on (R274). -/
def claimDue (s : State) (d : Nat) : Bool :=
  !(s.dome d).tileQ.isEmpty &&
    ((s.livePairs d).map Claimant.lantern ++ (s.poolAt d).map Claimant.pool).any (fun w =>
      (nextTicket s d w).any (fun x => claimBy s d x.2.1 x.2.2.1 x.2.2.2 ≤ s.now))

/-- A T-op that its home must take in before the clock goes on, so that its tiles can be claimed in time. -/
def acceptDue (s : State) (n : Nat) (t : Top) : Bool :=
  t.stage == .waiting && t.since + 32 + t.far ≤ s.now && (look (topAccept n s).tops n).any (fun u => u.stage != .waiting)

/-- A tile ends; an entry leaves its queue when its last tile completes. -/
def endTile (s : State) (n k : Nat) (t : Top) (fail : Option TileFail) (under : Nat) : State :=
  let fails := match fail with | some f => t.fails ++ [f] | none => t.fails
  let t := { t with claimed := t.claimed.filter (fun x => x.1 != k), ended := t.ended + 1, fails := fails,
                    nfail := fails.length, under := t.under + under }
  if t.ended == t.nt then
    (putTop s n { t with stage := .done }).modDome t.home (fun d => { d with tileQ := d.tileQ.filter (· != n) })
  else putTop s n t

/-- Whether a granule holds scale bytes of a tile's destination. -/
def inScales (t : Top) (k g : Nat) : Bool :=
  t.dd.scaled && (tileSegs t.op t.dd k).any (fun x => paOf t.pages (t.dd.scaleVa x.x) / 64 * 64 == g)

/-- TILE_COMPLETE (R272): a tile that has still to read its operands reads them; one that has writes its destination, or fails and
writes nothing. -/
def tileComplete (n k : Nat) (s : State) : State :=
  match look s.tops n with
  | none => s
  | some t =>
    match look t.claimed k with
    | none => s
    | some r =>
      match r.got, r.fail with
      | false, _ => readTile n k s
      | true, some f => endTile s n k t (some f) 0
      | true, none =>
        match writeTile s (whoClaim r.who false) (.tile n k) (tilePieces r.out) s none with
        | .ok s' none => endTile s' n k t none r.under
        | .ok s' (some g) => endTile s' n k t (some { poisonFail k ⟨2, g, inScales t k g⟩ with tile := k }) r.under
        | .wait s' => s'
def execTileComplete (t n : Nat) (s : State) : Out := .next (tileComplete t n s)

/-! ## The report (R278, R280) -/

/-- The failure that decides a T-op's status: that of its lowest-numbered failed tile (R280, R297). -/
def firstFail : List TileFail → Option TileFail
  | [] => none
  | f :: l =>
    match firstFail l with
    | some g => if g.tile < f.tile then some g else some f
    | none => some f

def topStatus (t : Top) : Nat := match firstFail t.fails with | some f => f.status | none => 0

/-- Word 0 of the fault record (R280); a translation failure and an abandoned T-op have no origin dome, and the word's bits there
are open (DESIGN CHOICE, log entry 46). -/
def topWord0 (t : Top) (open_ : W64) : W64 :=
  match firstFail t.fails with
  | none => BitVec.ofNat 64 t.tag.toNat
  | some f =>
    let dome := if f.status == 3 || f.status == 2 then open_.toNat % 128 else f.dome
    BitVec.ofNat 64 (t.tag.toNat + f.status * 2 ^ 16 + f.pos * 2 ^ 20 + (if f.scale then 2 ^ 22 else 0) + dome * 2 ^ 23)

/-- What the core keeps of a report: tag, status and record words. Word 1 holds a granule or a page in bits [51:0], but the whole
address of a grammar fault (R297); of an abandoned T-op it is open there. A translation failure has an open count of tiles. -/
def topRep (t : Top) (o1 o2 : W64) : TopRep :=
  match firstFail t.fails with
  | none => { tag := t.tag, status := 0, cause := 0, r0 := topWord0 t o1, r1 := 0, r2 := 0 }
  | some f =>
    { tag := t.tag, status := f.status, cause := 0, r0 := topWord0 t o1,
      r1 := if f.status == 4 then BitVec.ofNat 64 f.word1
            else BitVec.ofNat 64 ((if f.status == 2 then o2.toNat else f.word1) % 2 ^ 52),
      r2 := if f.status == 3 then o2 else BitVec.ofNat 64 (f.tile + t.nfail * 2 ^ 32) }

/-- The cause that TWAIT traps with, kept beside the status in the report (R278). -/
def topCause (t : Top) : BitVec 8 :=
  match firstFail t.fails with
  | none => 0
  | some f =>
    match f.status with
    | 1 => cPlacedFault
    | 2 => cFreezeTimeout
    | 3 => if t.detMode then cNondet else f.cause
    | 4 => f.cause
    | _ => cPlacedFault

/-- The record of a T-op that TWAIT reports (R377 kind 4). -/
def frecTop (pos : Pos) (r : TopRep) : FRec := { kind := 4, slot := pos, r0 := r.r0, r1 := r.r1, r2 := r.r2 }

/-- A wait at TWAIT for a T-op. -/
def twaitOf (tag : BitVec 16) (w : Wait) : Bool :=
  match w with
  | .twait t .. => t == tag
  | _ => false

/-- A core's wait for a T-op ends with its report (R276). -/
def wakeTwait (s : State) (c : Nat) (r : TopRep) : State :=
  match (s.core c).mode, (s.core c).waits.find? (twaitOf r.tag) with
  | .run, some (.twait tag src took pos) =>
    if r.status == 0 then s.modCore c (fun k => wakeCore k (.twait tag src took pos) (k.seq.vcc + 1))
    else
      let a := Agent.core c
      let s := match took with | some e => s.setEntries a src (e :: s.entries a src) | none => s
      takeTrap s a (oneFault .mx r.cause (frecTop .mx r)) pos
  | _, _ => s

/-- A core takes a report: UISTAT bit [1], the kept statuses, the underflow counter (R266, R276, R278). -/
def reportCore (t : Top) (r : TopRep) (k : Core) : Core :=
  { k with uistat := k.uistat ||| 2#64, tops := k.tops.filter (· != t.tag), reports := (r :: k.reports).take 64,
           qUnder := k.qUnder + t.under }

/-- A report for a core whose context is saved is kept there (R282). -/
def reportSaved (t : Top) (r : TopRep) (c : Nat) (x : Nat × SavedCtx) : Nat × SavedCtx :=
  if some x.2.num == t.launch then
    (x.1, { x.2 with cores := x.2.cores.map (fun y => if y.1 == c then (c, reportCore t r y.2) else y) })
  else x

/-- Whether the report may be made: at completion, in deterministic mode not before the deadline (R278). -/
def reportDue (s : State) (t : Top) : Bool :=
  t.stage == .done &&
    (!t.detMode ||
      (match t.from_ with
       | .core c => (s.core c).launch != t.launch || t.deadline ≤ s.vccOf c
       | .command .. => t.deadline ≤ s.now))

/-- TOP_REPORT (R278). -/
def topReport (n : Nat) (s : State) : State :=
  match look s.tops n with
  | none => s
  | some t =>
    if !reportDue s t then s
    else
      let d1 := s.draw
      let d2 := d1.2.draw
      let r := { topRep t d1.1 d2.1 with cause := topCause t }
      let s := { d2.2 with tops := drop s.tops n }
      match t.from_ with
      | .core c =>
        if (s.core c).launch == t.launch then wakeTwait (s.modCore c (reportCore t r)) c r
        else { s with contexts := s.contexts.map (reportSaved t r c) }
      | .command q slot =>
        if r.status == 0 then completeCmd q slot 0 0 s else completeCmd q slot 10 r.r0 s
def execTopReport (t : Nat) (s : State) : Out := .next (topReport t s)

/-! ## TWAIT (R276) -/

/-- TWAIT: ILLEGAL_INDEX, a kept status, or a wait. -/
def execTwait (p : Pre) (f : FmtMT) (s : State) : Out :=
  .next (runSlot p (fun s =>
    { lane := 0, srcs := [.x f.xt.toNat f.pt],
      act := fun vs =>
        let v := (toX (vs.getD 0 0)).toNat
        let k := s.core (coreOf s.cur.agent)
        let last := (k.topNext + 2 ^ 16 - 1) % 2 ^ 16
        if 2 ^ 16 ≤ v || 2 ^ 15 ≤ (last + 2 ^ 16 - v) % 2 ^ 16 then Act.trap causeIllegalIndex FRec.none
        else if k.tops.any (fun t => t.toNat == v) then
          Act.eff (fun s' =>
            startWait s' (.twait (BitVec.ofNat 16 v) (s.xq s.cur.agent f.xt.toNat) (tookEntry s f.pt (vs.getD 0 0)) s.cur.pos))
        else
          match k.reports.find? (fun r => r.tag.toNat == v) with
          | some r => if r.status == 0 then Act.nothing else Act.trap r.cause (frecTop p.pos r)
          | none => Act.nothing }) s)

end Sys2Proof.Machine
end

