-- ==== Sys2Proof/Machine/Collective.lean ====
section
/-! DEFINITION. Collective T-ops and the steps of their ports (R405 to R410). -/

namespace Sys2Proof.Machine

/-- Ranks and rank of the switch on a port, none where it holds none. -/
def switchOf (s : State) (port : Nat) : Option (Nat × Nat) :=
  match look s.fw.ports port with
  | some (.switch r k) => some (r, k)
  | _ => none

/-- The shapes of R405, with the formats that the bits may pass between. -/
def collectiveShape (op ranks : Nat) (dd a : Desc) : Bool :=
  match op with
  | 0x20 => dd.rank == a.rank && (List.range 4).all (fun j => dd.e j == a.e j)
  | 0x21 =>
    dd.rank == a.rank + 1 && dd.rank ≤ 4 && dd.fmt == a.fmt && dd.e a.rank == ranks &&
      (List.range a.rank).all (fun j => dd.e j == a.e j)
  | _ => dd.rank == a.rank && dd.fmt == a.fmt && (List.range 4).all (fun j => dd.e j == a.e j)

/-- The checks of R405 and R259 at issue. -/
def collectiveCheck (s : State) (op : Nat) (aux : BitVec 8) (dd a : Option Desc) : Option (BitVec 8) :=
  match dd, a, switchOf s (aux.toNat / 4 % 16) with
  | some dd, some a, some (ranks, _) =>
    if dd.slg || a.slg || dd.scaled || a.scaled || 2 ^ 20 < a.esz * a.e 0 * a.rows || !collectiveShape op ranks dd a ||
        !apart dd || (!(op == 0x22 && dd.alias_ a) && sharesBytes dd.runs a.runs) then some causeIllegalField
    else if dd.base % dd.esz != 0 || a.base % a.esz != 0 then some cAlign
    else none
  | _, _, _ => some causeIllegalField

def runCollective (op : Nat) (p : Pre) (f : FmtMT) (s : State) : State :=
  runSlot p (fun s =>
    { lane := 0, srcs := [], act := fun _ => topAct s p f op (fun dd a _ => collectiveCheck s op f.aux dd a),
      outs := [s.xq s.cur.agent f.xt.toNat] }) s

/-- TALLRED (R405, R407). -/
def execTallred (p : Pre) (f : FmtMT) (s : State) : Out := .next (runCollective 0x20 p f s)
/-- TGATHER (R405, R407). -/
def execTgather (p : Pre) (f : FmtMT) (s : State) : Out := .next (runCollective 0x21 p f s)
/-- TBCAST (R405, R407). -/
def execTbcast (p : Pre) (f : FmtMT) (s : State) : Out := .next (runCollective 0x22 p f s)

/-! ## The switch (R407, R408) -/

/-- Elements of a list of bytes. -/
def elemsOf (esz : Nat) (bs : List Byte) : List Nat := (piecesOf esz bs.length bs).map ofBytes

/-- One element of a TALLRED over the ranks in ascending order. -/
def allredElem (t : Top) (xs : List Nat) : Nat :=
  let op := t.aux.toNat / 64
  let md := rmode (t.aux.setWidth 2)
  if t.ds1.plainInt && t.dd.plainInt then convert t.dd.ty false md (.int (redInt op (xs.map (laneInt t.ds1.ty))))
  else
    convert t.dd.ty false md (.flt (redFlt op (xs.map (fun x =>
      rne32 (if t.ds1.fmt ≤ 7 then ofInt (laneInt t.ds1.ty x) 0 else laneF t.ds1.ty x)))))

/-- The result of a step, none where the contributions do not fit it; this panel's own stands at its rank. -/
def stepResult (t : Top) (ranks own : Nat) (inp : SwitchInput) : Option (List Byte) :=
  let cs := inp.ranks.mapIdx (fun i c => if i == own then t.contrib else c)
  let n := t.contrib.length
  if cs.length != ranks then none
  else
    match t.op with
    | 0x20 =>
      if cs.all (fun c => c.length == n) then
        some ((List.range (n / t.ds1.esz)).flatMap (fun i =>
          toBytes (allredElem t (cs.map (fun c => (elemsOf t.ds1.esz c).getD i 0))) t.dd.esz))
      else none
    | 0x21 => if cs.all (fun c => c.length == n) then some cs.flatten else none
    | _ =>
      match cs[inp.root]? with
      | some c => if c.length == n && t.sends == (inp.root == own) then some c else none
      | none => none

/-- The digest of a result (R408), 64-bit words in ascending address order. -/
def digest (step : Nat) (bs : List Byte) : W64 :=
  (piecesOf 8 bs.length bs).foldl (fun d w => d.rotateLeft 1 + BitVec.ofNat 64 (ofBytes w)) (BitVec.ofNat 64 step)

/-- COLLECTIVE_STEP (R407): the switch forms the step's result, and the ranks send their digests back. -/
def collectiveStep (n : Nat) (inp : SwitchInput) (s : State) : State :=
  match look s.tops n with
  | none => s
  | some t =>
    if !isCollective t.op || t.stage != .queued || t.contrib.isEmpty || t.result.isSome then s
    else
      match switchOf s t.port with
      | none => s
      | some (ranks, own) =>
        match stepResult t ranks own inp with
        | none => s
        | some r =>
          putTop s n { t with result := some r,
                              agree := inp.digests.length == ranks && inp.digests.all (· == digest t.stepNo r) }
def execCollectiveStep (t : Nat) (inp : SwitchInput) (s : State) : Out := .next (collectiveStep t inp s)

/-- Destination pieces of a dense result. -/
def spread (pages : List (Nat × Nat)) : List (Nat × Nat × Bool) → List Byte → List (Nat × List Byte)
  | [], _ => []
  | r :: l, bs =>
    ((physPieces pages r.1 r.2.1).foldl (fun (a : List (Nat × List Byte) × List Byte) x =>
      (a.1 ++ [(x.1, a.2.take x.2)], a.2.drop x.2)) ([], bs.take r.2.1)).1 ++ spread pages l (bs.drop r.2.1)

/-- DIGEST_CONFIRM (R408): the port dome writes dd. -/
def digestConfirm (n : Nat) (s : State) : State :=
  match look s.tops n with
  | none => s
  | some t =>
    match t.result with
    | none => s
    | some r =>
      if !isCollective t.op || t.stage != .queued || !t.agree then s
      else
        match writeTile s { kind := 3, idx := 0, spire := none } (.tile n 0) (tilePieces (spread t.pages t.dd.runs r)) s none with
        | .ok s' none => leaveQueue n t (putTop s' n { t with stage := .done })
        | .ok s' (some g) => leaveQueue n t (putTop s' n { t with stage := .done, fails := [poisonFail 0 ⟨2, g, false⟩], nfail := 1 })
        | .wait s' => s'
def execDigestConfirm (t : Nat) (s : State) : Out := .next (digestConfirm t s)

/-- A FABRIC record (R344, R410), posted by the firmware. -/
def fabricNote (port reason step : Nat) : Note :=
  { code := 0x30, source := 1, index := chimeDome port, w0 := BitVec.ofNat 64 (port + reason * 16 + step % 2 ^ 32 * 2 ^ 32), w1 := 0 }

/-- COLLECTIVE_RETRY (R408): an abort, or digests that disagree; a fourth failure abandons the step. -/
def collectiveRetry (n : Nat) (disagree : Bool) (s : State) : State :=
  match look s.tops n with
  | none => s
  | some t =>
    let failed := if disagree then t.result.isSome && !t.agree else t.result.isNone
    if !isCollective t.op || t.stage != .queued || t.contrib.isEmpty || !failed then s
    else if t.retries < 3 then putTop s n { t with retries := t.retries + 1, result := none, agree := false }
    else
      postNote (leaveQueue n t (putTop s n { t with stage := .done, fails := [startFail 2 cFreezeTimeout 0 t.home 0], nfail := 1 }))
        (fabricNote t.port (if disagree then 1 else 0) t.stepNo)
def execCollectiveRetry (t : Nat) (disagree : Bool) (s : State) : Out := .next (collectiveRetry t disagree s)

end Sys2Proof.Machine
end

