-- ==== Sys2Proof/Machine/Drain.lean ====
section
/-! DEFINITION. The drain of the matrix unit (R167 to R169, R172): one row every four cycles. -/

namespace Sys2Proof.Machine

/-- The bytes of one drained row and the underflows it counts (R168). -/
def drainBytes (fmt : Nat) (rm : BitVec 2) (ws : List Nat) : List Byte × Nat :=
  if fmt == 0 then (ws.flatMap (fun w => toBytes w 4), 0)
  else if fmt ≤ 2 then (ws.flatMap (fun w => toBytes (rnd (unpack fmtF32 w) (floatFmt (fmtTy fmt)) (rmode rm)) 2), 0)
  else
    let bs := (piecesOf 64 2 ws).map (fun b => quantBlock (fmtTy fmt) (b.map (unpack fmtF32)))
    (bs.flatMap (fun b => b.2.1.map (fun x => BitVec.ofNat 8 x)) ++ bs.map (fun b => BitVec.ofNat 8 b.1),
      (bs.map (fun b => b.2.2)).foldl (· + ·) 0)

/-- Bytes into a local memory of a core; a write to CLM may meet a watch (R181, R231). -/
def localStore (s : State) (a : Nat) (bs : List Byte) : State :=
  let s := s.localWrite a bs
  if 2 ^ 60 ≤ a then s else fireWatches s a bs.length none

/-- Drains row i (R168), none where it holds an uncorrectable word (R169). -/
def drainOne (c fmt : Nat) (rm : BitVec 2) (d : Drain) (i : Nat) (s : State) : Option State :=
  if s.badUnder (cmemAt c (d.crow + i) 0) (4 * d.ncol) then none
  else
    let ws := (List.range d.ncol).map (fun j => s.mem.num (cmemAt c (d.crow + i) j) 4)
    let r := drainBytes fmt rm ws
    some ((localStore s (localBase c d.sp + d.dest + i * d.stride) r.1).modCore c (fun k => { k with qUnder := k.qUnder + r.2 }))

/-- The drain word of what is left after n rows: the resume cursor of a drain (R172). -/
def drainLeft (w : W64) (n : Nat) : W64 :=
  let d := drainOf w
  BitVec.ofNat 64 ((d.crow + n) % 2 ^ 9 + (d.nrow - n) * 2 ^ 9 + w.toNat / 2 ^ 19 % 2 ^ 5 * 2 ^ 19 +
    (d.dest + n * d.stride) % 2 ^ 24 * 2 ^ 24 + w.toNat / 2 ^ 48 * 2 ^ 48)

/-- A drain stops after n rows, since its core stops or at a fault: what is left stays at the head of the queue (R171, R172). -/
def drainStop (c fmt : Nat) (rm : BitVec 2) (w : W64) (n : Nat) (s : State) : State :=
  s.modMx c (fun x => { x with queue := .mdrain fmt rm (drainLeft w n) :: x.queue.drop 1, running := false, drained := 0,
                               freeAt := s.vccOf c + 1 })

def stopping (k : Core) : Bool := match k.mode with | .stop _ => true | _ => false

/-- A drain's next row may be written: its cycle has come; a stop lets the row under way end (R172). -/
def drainReady (s : State) (c : Nat) : Bool :=
  let x := s.mx c
  x.running && x.fault.isNone && x.freeAt ≤ s.vccOf c && !s.frozen (.core c) &&
    (match (s.core c).mode with | .stop d => !d | .free => false | .loaded => false | _ => true)

/-- MDRAIN_EXECUTE (R168, R169): the next row of the drain at the head, at the last of its four cycles. -/
def mdrainRun (c : Nat) (s : State) : State :=
  match (s.mx c).queue with
  | .mdrain fmt rm w :: _ =>
    if !drainReady s c then s
    else
      let d := drainOf w
      let i := (s.mx c).drained
      match drainOne c fmt rm d i s with
      | none =>
        mxFaultIn (drainStop c fmt rm w i (countFound s c [(cmemAt c (d.crow + i) 0, 4 * d.ncol)])) c cAccError 3 0 (d.crow + i) 10
      | some s' =>
        if d.nrow ≤ i + 1 then addWeight (retireMx s' c) c 10
        else if stopping (s.core c) then addWeight (drainStop c fmt rm w (i + 1) s') c 10
        else s'.modMx c (fun x => { x with drained := i + 1, freeAt := x.freeAt + 4 })
  | _ => s
def execMdrainExecute (c : Nat) (s : State) : Out := .next (mdrainRun c s)

/-- The unit has stopped for a save (R172): no microinstruction or row of a drain is under way. -/
def mxStopped (s : State) (c : Nat) : Bool :=
  mxQuiet s c &&
    (match (s.mx c).queue.head? with
     | some (.mdrain ..) => !(s.mx c).running
     | _ => true)

end Sys2Proof.Machine
end

