-- ==== Sys2Proof/Machine/Traps.lean ====
section
/-! DEFINITION. Due writes and landings, waits cancelled and resumed (R232), user-level interrupts and UIRET (R130, R383,
R384), the report of a trap (R378), rollback (R379, R382), and the stop of a core (R388). -/

namespace Sys2Proof.Machine

/-! ## What comes due -/

def dueWr (t : Nat) (w : PendWr) : Bool := w.ready && w.due ≤ t

def handleOf (w : PendWr) : Option Nat := match w.wr with | .handle n _ => some n | _ => none

/-- The result of an XLAT lands after that of an earlier XLAT of its handle that is still due (R336). Only an HREL writes
`Handle.none`, and waits for none. -/
def xlatHeld (l : List PendWr) (w : PendWr) : Bool :=
  match w.wr with
  | .handle n h => h != Handle.none && l.any (fun y => y.ser < w.ser && !y.ready && handleOf y == some n)
  | _ => false

/-- Whether a write of a list takes effect at VCC t. -/
def landsNow (t : Nat) (l : List PendWr) (w : PendWr) : Bool := dueWr t w && !xlatHeld l w

/-- The plain-register writes of an agent that are due take effect (R100). The spec gives no order to two writes of one register that
fall due in one cycle, as an HREL and an earlier XLAT may: they are applied in the order of their issue, so that the later stands
(DESIGN CHOICE). -/
def settle (a : Agent) (s : State) : State :=
  let k := s.seq a
  (k.pend.filter (landsNow k.vcc k.pend)).foldl (fun s w => applyWr s a w.wr)
    (s.modSeq a (fun k => { k with pend := k.pend.filter (fun w => !landsNow k.vcc k.pend w) }))

/-- One local store of an agent is performed; the units that a core's store writes are noted for its cycle (R249). -/
def performOne (a : Agent) (s : State) (x : LocalSt) : State :=
  let s := localStore s x.addr x.bytes
  match a with
  | .core c => s.modCore c (fun k => { k with stored := k.stored ++ stepsOf x.addr x.bytes.length 8 })
  | _ => s

/-- The local stores of an agent that are due are performed (R180). -/
def settleStores (a : Agent) (s : State) : State :=
  let k := s.seq a
  (k.stores.filter (fun x => x.due ≤ k.vcc)).foldl (performOne a)
    (s.modSeq a (fun k => { k with stores := k.stores.filter (fun x => k.vcc < x.due) }))

/-- Every entry of the core but those given has landed (R105). -/
def landedBut (k : Core) (own : List Nat) : Bool :=
  k.seq.queues.all (fun q => q.2.all (fun e => own.contains e.id || (e.due ≤ k.seq.vcc && e.data.isSome)))

/-- Every sent or queued access of a core is performed and its reply has landed (R233). -/
def offcoreIdle (s : State) (c : Nat) : Bool :=
  let k := s.core c
  k.ldq.isEmpty && k.stq.isEmpty && k.out.isEmpty && !s.reps.any (fun r => r.acc.src == .core c)

/-- The entry that a CWAIT keeps reserved. -/
def waitEntry : Wait → Option Nat
  | .cwait _ _ _ _ eid _ _ => some eid
  | _ => none

/-- The waits that an interrupt or a stop cancels: WAITV, CWAIT, TWAIT, BWAIT. -/
def cancellable : Wait → Bool
  | .mwait _ => false
  | .uiret => false
  | _ => true

/-- The entries that a core's waits keep reserved. -/
def waitEntries (k : Core) : List Nat := k.waits.filterMap waitEntry

/-- A core stands at a bundle boundary, or in waits that may be cancelled there. -/
def boundary (k : Core) : Bool :=
  k.seq.nextAt ≤ k.seq.vcc && (match k.mode with | .run => true | _ => false) && k.waits.all cancellable

/-! ## Waits cancelled and resumed (R232, R247, R276, R368) -/

/-- An access is withdrawn wherever it stands: queues, requests, watches, replies. -/
def withdraw (s : State) (c : Nat) (x : Access) : State :=
  let other := fun y : Access => y.id != x.id
  let s := s.modCore c (fun k => { k with ldq := k.ldq.filter other, out := k.out.filter other })
  let s := { s with reqs := s.reqs.filter other, reps := s.reps.filter (fun r => other r.acc) }
  s.setWatches x.pa ((s.watchesAt x.pa).filter (fun h => other h.acc))

/-- A wait is cancelled: a WAITV's watch and request go, a CWAIT's reserved entry goes. -/
def cancelWait (s : State) (c : Nat) (w : Wait) : State :=
  match w with
  | .waitv x => withdraw s c x
  | .cwait _ _ _ dst eid _ _ =>
    s.setEntries (.core c) dst ((s.entries (.core c) dst).filter (fun e => e.id != eid))
  | _ => s

/-- Every wait of a core is cancelled; which waits they were stays known. -/
def cancelWaits (s : State) (c : Nat) : State := (s.core c).waits.foldl (fun s w => cancelWait s c w) s

def setMode (s : State) (c : Nat) (m : CoreMode) : State := s.modCore c (fun k => { k with mode := m })

/-- A wait stands again. -/
def addWait (s : State) (c : Nat) (w : Wait) : State := s.modCore c (fun k => { k with waits := k.waits ++ [w] })

/-- A WAITV's request is sent again, alone. -/
def resumeWaitv (s : State) (c : Nat) (x : Access) : State :=
  let r := s.freshId
  let t := s.vccOf c
  let y := { x with id := r.1, retry := false, late := t + x.bound, stamp := t + 4 + x.path, came := none, since := s.now }
  r.2.modCore c (fun k => { k with waits := k.waits ++ [.waitv y], ldq := k.ldq ++ [y] })

/-- A CWAIT's wait goes on: its entry is reserved again, and a command reported meanwhile ends it. -/
def resumeCwait (s : State) (c : Nat) (tag : BitVec 16) (src : QName) (took : Option Entry) (dst : QName) (pos : Nat)
    (slot : Pos) : State :=
  match reserve s (.core c) dst (2 ^ 64) with
  | none => takeTrap s (.core c) (oneFault slot qOverflow FRec.none) pos
  | some (id, s) =>
    let s := addWait s c (.cwait tag src took dst id pos slot)
    match tagLook (s.core c) (tag.setWidth 64) with
    | .word w => wakeCwait s c tag w
    | _ => s

/-- A TWAIT's wait goes on; a T-op reported meanwhile ends it. -/
def resumeTwait (s : State) (c : Nat) (w : Wait) (tag : BitVec 16) : State :=
  let s := addWait s c w
  let k := s.core c
  if k.tops.contains tag then s
  else
    match k.reports.find? (fun r => r.tag == tag) with
    | some r => wakeTwait s c r
    | none => s.modCore c (fun k => wakeCore k w (k.seq.vcc + 1))

/-- A wait at a bell goes on, unless the release has come; a BELL then arrives. -/
def resumeBwait (s : State) (c b : Nat) (bell : Option (Nat × Nat)) : State :=
  let st := (s.core c).bell b
  if st.arrived && !st.excused then addWait s c (.bwait b bell)
  else
    match bell with
    | some (ser, by_) => arriveLate c b ser by_ s
    | none => s

/-- A cancelled wait is resumed alone; where an earlier one of its bundle has trapped on being resumed, it goes. -/
def resumeWait (c : Nat) (s : State) (w : Wait) : State :=
  match (s.core c).mode with
  | .run =>
    (match w with
     | .waitv x => resumeWaitv s c x
     | .cwait tag src took dst _ pos slot => resumeCwait s c tag src took dst pos slot
     | .twait tag _ _ _ => resumeTwait s c w tag
     | .bwait b bell => resumeBwait s c b bell
     | _ => addWait s c w)
  | _ => s

/-- The cancelled waits of a running core are resumed; with none left, a core whose bundle held END ends. -/
def resumeWaits (s : State) (c : Nat) (ws : List Wait) : State := (ws.foldl (resumeWait c) s).modCore c afterWait

/-! ## User-level interrupts (R383, R384) -/

/-- An enabled interrupt is pending and may be taken now. -/
def intReady (k : Core) : Bool :=
  boundary k && !k.finWait && k.uistat.getLsbD 3 && !k.uistat.getLsbD 4 && k.uistat &&& 7#64 != 0 &&
    k.uivec != 0xFFFFFF && k.quiet.isNone && k.ackFaults.isEmpty && k.mx.fault.isNone &&
    landedBut k (waitEntries k)

/-- Entry: EPC, FAULTMASK, CAUSE and UISTAT bit [4] are written, the return-stack depth and the holds are kept, and the
bundle at UIVEC issues two cycles later. -/
def enterHandler (k : Core) : Core :=
  { k with
    mode := .run
    epc := BitVec.ofNat 24 k.seq.pos
    faultMask := 0
    cause := (k.uistat &&& 7#64).setWidth 48
    uistat := k.uistat ||| 16#64
    handlerDepth := k.seq.rstack.length
    handlerPos := k.seq.pos
    savedHolds := k.seq.holds
    waits := []
    savedWaits := k.waits
    savedMark := k.markNext
    markNext := false
    seq := { k.seq with pos := k.uivec.toNat, nextAt := k.seq.vcc + 2, holds := [] } }

/-- USER_INTERRUPT_ENTRY (R383). -/
def userInterrupt (c : Nat) (s : State) : State :=
  let k := s.core c
  if intReady k && !s.frozen (.core c) then
    (cancelWaits s c).modCore c enterHandler
  else s
def execUserInterruptEntry (c : Nat) (s : State) : Out := .next (userInterrupt c s)

/-- Every entry of the shadow queues has landed. -/
def shadowLanded (k : Core) : Bool :=
  k.seq.queues.all (fun q => q.1.kind != .sh || q.2.all (fun e => e.due ≤ k.seq.vcc && e.data.isSome))

/-- The return of a handler: its shadow entries and return positions go, UISTAT bit [4] clears, and the saved holds and a
forced mark stand again (R130, R383). Waits that the UIRET's bundle has committed beside it go on. -/
def leaveHandler (k : Core) : Core :=
  { k with
    waits := k.waits.filter (· != .uiret)
    uistat := k.uistat &&& ~~~16#64
    savedHolds := []
    savedWaits := []
    savedMark := false
    markNext := k.savedMark
    seq := { k.seq with pos := k.handlerPos, nextAt := k.seq.vcc + 2, holds := k.savedHolds,
                        queues := k.seq.queues.filter (fun q => q.1.kind != .sh),
                        rstack := k.seq.rstack.drop (k.seq.rstack.length - k.handlerDepth) } }

/-- A UIRET that waits returns once its shadow entries have landed; the waits that the interrupt cancelled then go on. -/
def uiretDone (c : Nat) (s : State) : State :=
  let k := s.core c
  if k.liveWaits.contains .uiret && shadowLanded k then
    let s := s.modCore c leaveHandler
    if k.finWait then s.modCore c afterWait else resumeWaits s c k.savedWaits
  else s

/-- REPLY_LANDS: a shadow entry that lands late, in a freeze, may end the wait of a UIRET (R130). -/
def execReplyLands (n : Nat) (s : State) : Out :=
  .next (match s.reps.find? (fun r => r.acc.id == n) with
         | some r => (match r.acc.src with | .core c => uiretDone c (replyLands n s) | _ => replyLands n s)
         | none => replyLands n s)

/-- UIRET (R130): ILLEGAL_OP outside a handler. Taken by itself it returns at once where nothing is still to land. -/
def execUiret (p : Pre) (s : State) : Out :=
  let s' := runSlot p (fun s =>
    { lane := 0, srcs := [],
      act := fun _ =>
        if inHandler (s.core (coreOf s.cur.agent)) then Act.eff (fun s => startWait s .uiret)
        else Act.trap causeIllegalOp FRec.none }) s
  .next (match s.cur.phase with | .whole => uiretDone (coreOf s.cur.agent) s' | _ => s')

/-! ## The report of a trap (R378) -/

def causeByte (k : Core) (pos : Pos) : BitVec 8 := byteOf k.cause pos
def firstCause (k : Core) : Nat := firstByte k.faultMask k.cause

/-- Status and detail of a launch that a core's report ends (R326, R355, R378). -/
def trapEnd (c : Nat) (k : Core) : LaunchEnd :=
  let any := fun cz : BitVec 8 => allPos.any (fun pos => causeByte k pos == cz)
  if any cNondet || (k.detMode && any cFreezeTimeout) then { status := 9, detail := BitVec.ofNat 64 c }
  else
    { status := 6
      detail := BitVec.ofNat 64 (c % 2 ^ 13 + k.epc.toNat * 2 ^ 16 + firstCause k * 2 ^ 40 + k.faultMask.toNat * 2 ^ 48) }

/-- A pair's threads stop, and its queues are discarded (R309, R313). -/
def stopThread (q : Seq) : Seq := { q with queues := [], pend := [], holds := [], rstack := [], stores := [] }
def stopPair (k : Pair) : Pair :=
  { k with haltA := true, haltE := true, segment := none, a := stopThread k.a, e := stopThread k.e, ldq := [] }

/-- A core of an ending launch is asked to stop; one that has not issued yet ends. -/
def askStop (n at_ : Nat) (x : Nat × Core) : Nat × Core :=
  if x.2.launch != some n then x
  else
    match x.2.mode with
    | .free => x
    | .ended => x
    | .trap _ => x
    | .loaded => (x.1, { x.2 with mode := .ended })
    | _ => (x.1, { x.2 with stopReq := true, stopAt := at_ })

/-- The first report ends a launch: its other cores and its loaded pairs are stopped, and no more pairs are loaded. -/
def endLaunch (n : Nat) (e : LaunchEnd) (s : State) : State :=
  match s.launchOf n with
  | none => s
  | some L =>
    let mine := L.pairsLeft.filter (fun p => (s.pair p).launch == some n)
    let s := s.modLaunch n (fun L =>
      { L with ending := (match L.ending with | some x => some x | none => some e), pairsLeft := mine })
    let s := { s with cores := s.cores.map (askStop n 0) }
    mine.foldl (fun s p => s.modPair p stopPair) s

/-- The report of a core may leave: every entry has landed, and no core of lower id reports in the same cycle. -/
def reportReady (k : Core) : Bool := (match k.mode with | .trap false => true | _ => false) && landedBut k []

/-- TRAP_REPORT (R378): waits other than those for an entry are cancelled. -/
def trapReport (c : Nat) (s : State) : State :=
  let k := s.core c
  if !reportReady k || s.cores.any (fun x => x.1 < c && x.2.launch == k.launch && reportReady x.2) then s
  else
    let s := (cancelWaits s c).modCore c (fun k => { k with mode := .trap true, waits := [] })
    match k.launch with
    | some n => endLaunch n (trapEnd c k) s
    | none => s
def execTrapReport (c : Nat) (s : State) : Out := .next (trapReport c s)

/-! ## Rollback (R379, R382) -/

/-- The page of the handle of a TLB_MISS is one whose walk found no leaf (R336). -/
def missGone (k : Core) (f : SlotFault) : Bool := f.cause == cTlbMiss && f.frec.page.any k.noLeaf.contains

def pageFaults (k : Core) (fs : List SlotFault) : List SlotFault :=
  fs.map (fun f => if missGone k f then { f with cause := 0x0F } else f)

/-- No write that has left a copy engine is still to be performed. -/
def enginesLeft (k : Core) : Bool := k.eng0.left.isEmpty && k.eng1.left.isEmpty

/-- What a rollback waits for. -/
def rollIdle (s : State) (c : Nat) : Bool :=
  let k := s.core c
  landedBut k [] && k.mx.queue.isEmpty && k.eng0.queue.isEmpty && k.eng1.queue.isEmpty && enginesLeft k && k.fwd.isEmpty &&
    offcoreIdle s c && k.fills.isEmpty && k.seq.pend.all (dueWr k.seq.vcc)

/-- The bells of a snapshot as a rollback restores them: the sent count and an excusal stay, and a restored arrival is pending or
released as the tree stands (R368). -/
def rollBells (k : Core) (gens : Nat → Nat) (l : List (Nat × BellSt)) : List (Nat × BellSt) :=
  (List.range 8).map (fun b =>
    let old := lookD l b BellSt.start
    let st := k.bell b
    (b, { old with sent := st.sent, excused := st.excused }.seen (gens b)))

/-- The held arrivals of a core that may leave do: with its stores performed, R366 has sent them before a rollback (R368). -/
def sendHeld (c : Nat) (s : State) : State :=
  ((s.core c).bellHeld.filter (arrivalReady (s.core c))).foldl (fun s h => bellArrival c h.bell s) s

/-- A held arrival that is not sent yet, and whose BELL is rolled back, is dropped. -/
def rollHeld (k : Core) (l : List (Nat × BellSt)) : List BellHeld :=
  k.bellHeld.filter (fun h => (k.bell h.bell).count == (lookD l h.bell BellSt.start).count)

def restoreSnap (gens : Nat → Nat) (x : Snapshot) (k : Core) : Core :=
  { k with
    mode := .run
    markNext := true
    seq := { k.seq with pos := x.pos, nextAt := k.seq.vcc + 2, queues := x.queues, preds := x.preds, rstack := x.rstack,
                        holds := x.holds, pend := [] }
    loops := x.loops
    pendNest := x.pendNest
    actNest := x.actNest
    handles := x.handles
    streams := x.streams
    kregs := x.kregs
    descs := x.descs
    quiet := x.quiet
    uivec := x.uivec
    uistat := (k.uistat &&& ~~~8#64) ||| (if x.uiEnable then 8#64 else 0)
    bells := rollBells k gens x.bells
    bellHeld := rollHeld k x.bells
    fwd := []
    gated := [] }

/-- ROLLBACK (R382): once nothing is outstanding the snapshot is restored, writes reserved before the mark included, and the mark
bundle issues again two cycles later and is a mark again, whatever its restart bit says (R379, R391). The spec gives the writes
reserved before the mark no order: they are applied in the order of their issue (DESIGN CHOICE). A page without a leaf makes the
trap a reported PAGE_FAULT (R336); a deferred matrix fault that stops the command queue is reported in its place. -/
def rollback (c : Nat) (s : State) : State :=
  let k := s.core c
  match k.mode with
  | .roll fs =>
    (match k.mx.fault with
     | some (cz, r0) => takeTrap s (.core c) (oneFault .mx cz { FRec.none with kind := 2, r0 := r0 }) k.epc.toNat
     | none =>
       if !rollIdle s c then s
       else if fs.any (missGone k) then
         s.modCore c (fun k => { k with cause := causeOfFaults (pageFaults k fs), mode := .trap false })
       else
         match k.snap with
         | none => setMode s c (.trap false)
         | some x =>
           let s := sendHeld c s
           x.pendRegs.foldl (fun s w => applyWr s (.core c) w.wr) (s.modCore c (restoreSnap (fun b => (pealOf s c b).gen) x)))
  | _ => s
def execRollback (c : Nat) (s : State) : Out := .next (rollback c s)

/-! ## The stop of a core (R387, R388, R378) -/

/-- A stop request may be taken: no quiet region is open, and one that a region has held waits for the entries to land
(R109). -/
def stopOpen (k : Core) : Bool := k.stopReq && k.quiet.isNone && (!k.stopHeld || landedBut k (waitEntries k))

/-- A stop request may be taken at this boundary. -/
def stopReady (k : Core) : Bool := stopOpen k && boundary k && k.stopAt ≤ k.seq.vcc

/-- What a stopping core waits for before its gated stores are released, and after. -/
def stopDrained (s : State) (c : Nat) : Bool :=
  let k := s.core c
  landedBut k [] && (k.fwd.all (fun f => f.due.isNone)) && offcoreIdle s c && k.seq.stores.isEmpty &&
    k.seq.pend.all (dueWr k.seq.vcc) && k.bellHeld.isEmpty && mxStopped s c && enginesLeft k && !copyHeld s c 0 && !copyHeld s c 1

/-- Whether the launch of a core is ending. -/
def launchEnding (s : State) (k : Core) : Bool := (k.launch.bind s.launchOf).any (fun L => L.ending.isSome)

/-- A recall that has caught a gated store of a core, and that its next boundary takes (R340). -/
def recallFault (k : Core) : Option SlotFault := k.ackFaults.find? (fun f => f.cause == cLeaseRecalled)

/-- A stopping core takes a recall's fault first: its gated store must not be sent, so it rolls back, and stops at its mark (R340,
R382). -/
def takeRecall (c : Nat) (f : SlotFault) (s : State) : State :=
  takeTrap (s.modCore c (fun k => { k with ackFaults := k.ackFaults.filter (· != f), waits := [] })) (.core c)
    (oneFault f.slot f.cause f.frec) (s.core c).seq.pos

/-- EPC of a core that stops in a WAITV: the bundle after it (R232). -/
def noteWaitv (k : Core) : Core :=
  if (k.waits.findSome? (waitvOf (fun _ => true))).isSome then { k with epc := BitVec.ofNat 24 k.seq.pos } else k

/-- CORE_STOP (R388): a core stops at a bundle boundary and drains, its waits cancelled and noted; a core of an ending launch
discards its gated stores and ends (R378). -/
def coreStop (c : Nat) (s : State) : State :=
  let k := s.core c
  let endNow := fun s : State => (cancelWaits s c).modCore c (fun k => { discardGated k with mode := .ended, waits := [] })
  match k.mode with
  | .stop true => if launchEnding s k then setMode s c .ended else s
  | .stop false =>
    if launchEnding s k then s.modCore c (fun k => { discardGated k with mode := .ended })
    else if (recallFault k).isSome then (recallFault k).elim s (fun f => takeRecall c f s)
    else if !stopDrained s c then s
    else if k.gated.isEmpty then setMode (settle (.core c) s) c (.stop true)
    else releaseGated c s
  | .roll _ => if k.stopReq && launchEnding s k then setMode s c .ended else s
  | .reload => if k.stopReq && launchEnding s k then setMode s c .ended else s
  | .run =>
    if launchEnding s k then (if stopOpen k && (boundary k || !k.waits.isEmpty) then endNow s else s)
    else if stopReady k && !s.frozen (.core c) then
      (match recallFault k with
       | some f => takeRecall c f (cancelWaits s c)
       | none => setMode ((cancelWaits s c).modCore c noteWaitv) c (.stop false))
    else s
  | _ => s
def execCoreStop (c : Nat) (s : State) : Out := .next (coreStop c s)

end Sys2Proof.Machine
end

