-- ==== Sys2Proof/Machine/Time.lean ====
section
/-! DEFINITION. Time: late results and freezes (R353 to R355, R311), the power governor (R370 to R372), and the tick of the
clock with what it brings due (R345, R348, R349). -/

namespace Sys2Proof.Machine

/-! ## Groups -/

/-- A core whose VCC runs: it holds a context that the Carillon has released. -/
def coreRuns (k : Core) : Bool := match k.mode with | .free => false | .loaded => false | .stop true => false | _ => true
/-- A lantern pair whose threads issue. -/
def pairRuns (k : Pair) : Bool := k.loaded && k.launch.isSome && k.faulted.isNone

def coreMembers (s : State) (g : Group) : List Nat :=
  (s.cores.filter (fun x => coreRuns x.2 && s.groupOf (.core x.1) == g)).map (·.1)
def pairMembers (s : State) (g : Group) : List Nat :=
  (s.pairs.filter (fun x => pairRuns x.2 && pairGroup x.2 x.1 == g)).map (·.1)

/-- Lead time of a group (R352). -/
def leadTime (s : State) : Group → Nat
  | .launch n => ((s.launchOf n).map (·.lead)).getD 0
  | _ => 0

/-- The VCC of a group. -/
def groupVcc (s : State) (g : Group) : Nat :=
  match coreMembers s g, pairMembers s g with
  | c :: _, _ => s.vccOf c
  | [], p :: _ => (s.pair p).a.vcc
  | [], [] => 0

/-- Cycles in which a release spreads over the members and home replicas of a group: 4, 10, 22 and 60 for the lead times 6, 12, 24
and 64 (R352, R367). -/
def spreadTime (s : State) (g : Group) : Nat :=
  let lead := leadTime s g
  if lead == 64 then 60 else lead - 2

/-! ## Late results (R353, R311) -/

/-- A result that a group waits for: why, and its deadline. -/
abbrev Due := FreezeWhy × Nat

/-- The accesses with a deadline that have not landed. A WAITV has none (R232). -/
def unlanded (s : State) (src : Source) (l : List Access) : List Access :=
  (l ++ (s.reps.filter (fun r => r.acc.src == src)).map (·.acc)).filter (fun x =>
    match x.kind with | .waitv .. => false | _ => true)

/-- The results of an engine with deadlines: its commands, and the writes that have left it (R351, R244). One that is over is
reported before the clock goes on, or at its deadline. -/
def engDues (c e : Nat) (x : CopyEngine) : List Due :=
  ((x.queue.filter (fun r => !r.finished)).map (fun r => (.copy c e r.tag, r.deadline))) ++
    x.left.map (fun o => (.copy c e o.tag, o.deadline))

/-- The engines' results of a core, and its T-ops from their issue on, with deadlines (R28, R351, R275). -/
def engineDues (s : State) (c : Nat) : List Due :=
  let k := s.core c
  engDues c 0 k.eng0 ++ engDues c 1 k.eng1 ++
  ((s.tops.filter (fun t => t.2.from_ == .core c && t.2.launch == k.launch && t.2.stage != .done && t.2.stage != .reported)).map
    (fun t => (.top t.1, t.2.deadline)))

/-- What a core waits for, with deadlines (R28, R335, R351, R275, R386), a core that has trapped among them (R378); one that stops for
a save waits for its accesses alone (R388). A result that the watchdog has given up is waited for no longer. -/
def coreDues (s : State) (c : Nat) : List Due :=
  let k := s.core c
  let acc : List Due := (unlanded s (.core c) (k.ldq ++ k.stq ++ k.out)).map (fun x => (.access c x.id, x.late))
  let all : List Due := match k.mode with
    | .stop _ => acc
    | m =>
      acc ++ (if k.detMode then k.fills.map (fun f => (.fill c f.id, f.start + 16)) else []) ++ engineDues s c ++
      (match m with | .reload => if k.detMode then [(.reload c, k.seq.vcc)] else [] | _ => [])
  all.filter (fun d => !k.lost.contains d.1)

def pairDues (s : State) (p : Nat) : List Due :=
  let k := s.pair p
  (unlanded s (.lantern p) (k.ldq ++ k.stq ++ k.out)).map (fun x => (.pairAccess p x.id, x.late))

def groupDues (s : State) (g : Group) : List Due :=
  (coreMembers s g).flatMap (coreDues s) ++ (pairMembers s g).flatMap (pairDues s)

/-- The results of a group that are late now and have raised no freeze. -/
def lateNow (s : State) (g : Group) : List Due :=
  (groupDues s g).filter (fun d => d.2 ≤ groupVcc s g + leadTime s g && !s.freezes.any (fun f => f.why == d.1))

/-- LATE_FREEZE (R353, R311): a late result raises a freeze that stops its group at its deadline. -/
def lateFreeze (g : Group) (s : State) : State :=
  match lateNow s g with
  | [] => s
  | d :: _ =>
    { s with freezes := s.freezes ++
      [{ group := g, why := d.1, at_ := max d.2 (groupVcc s g), since := s.now, overAt := none }] }
def execLateFreeze (g : Group) (s : State) : Out := .next (lateFreeze g s)

/-- A claimed tile waits at a home: to read its operands, or to write (R312). -/
def tileStuck (s : State) (n k : Nat) (t : Top) (r : TileRun) : Bool :=
  if !r.got then issuerReady s t && (runAny s t k r.who).isNone
  else
    r.fail.isNone &&
      (match writeTile s (whoClaim r.who false) (.tile n k) (tilePieces r.out) s none with
       | .wait _ => true
       | .ok .. => false)

/-- The tile that a pair's service waits for beyond the lantern bound, and whose freeze is not yet raised; a tile's write counts from
the end of its execution (R311). -/
def lateTile (s : State) (p : Nat) : Option (Nat × Nat) :=
  s.tops.findSome? (fun x =>
    if x.2.home != p / 64 || x.2.rise then none
    else
      (x.2.claimed.find? (fun y =>
        y.2.who == .lantern (p % 64) && y.2.since + 128 + (if y.2.got then x.2.ttile else 0) ≤ s.now &&
          !s.freezes.any (fun f => f.why == .tile x.1 y.1) && tileStuck s x.1 y.1 x.2 y.2)).map (fun y => (x.1, y.1)))

/-- The pairs whose service executes a tile. -/
def servingPairs (s : State) : List Nat :=
  s.tops.flatMap (fun x => x.2.claimed.filterMap (fun y => match y.2.who with | .lantern i => some (64 * x.2.home + i) | .pool _ => none))

/-- LANTERN_FREEZE (R311): the freeze of the group of a pair whose result is late, or of a pair whose service waits for a home. -/
def lanternFreeze (p : Nat) (s : State) : State :=
  if pairRuns (s.pair p) then lateFreeze (pairGroup (s.pair p) p) s
  else
    match lateTile s p with
    | none => s
    | some (n, k) =>
      { s with freezes := s.freezes ++
        [{ group := pairGroup (s.pair p) p, why := .tile n k, at_ := 0, since := s.now, overAt := none }] }
def execLanternFreeze (pr : Nat) (s : State) : Out := .next (lanternFreeze pr s)

/-! ## The end of a freeze -/

/-- Room in a shared table for the places that a waiting bundle needs (R235, R257). -/
def roomFor (s : State) (a : Agent) (need : List Nat) (key : Nat) : Bool :=
  let n := need.count key
  n == 0 ||
    (match key with
     | 2 => (s.ldqOf a).length + n ≤ queueCap a
     | 3 => (s.stqOf a).length + n ≤ queueCap a
     | 4 => (s.eng (coreOf a) 0).queue.length + n ≤ 16
     | 5 => (s.eng (coreOf a) 1).queue.length + n ≤ 16
     | 6 => (s.core (coreOf a)).tops.length + n ≤ 32
     | _ => true)

/-- The reason of a freeze is over. -/
def freezeOver (s : State) (f : Freeze) : Bool :=
  match f.why with
  | .access c _ => !(coreDues s c).any (fun d => d.1 == f.why)
  | .fill c _ => !(coreDues s c).any (fun d => d.1 == f.why)
  | .copy c _ _ => !(coreDues s c).any (fun d => d.1 == f.why)
  | .top t => (look s.tops t).all (fun x => x.stage == .done || x.stage == .reported)
  | .full a need => [2, 3, 4, 5, 6].all (roomFor s a need)
  | .reload c => (match (s.core c).mode with | .reload => false | _ => true)
  | .pairAccess p _ => !(pairDues s p).any (fun d => d.1 == f.why)
  | .tile n k => (look s.tops n).all (fun t => (look t.claimed k).all (fun r => !tileStuck s n k t r))
  | .power => false

/-- Whether a freeze may end now: at once in a group of one and after a wait for room, else when the release has spread and
the group has stopped for it (R353). -/
def freezeDone (s : State) (f : Freeze) (t : Nat) : Bool :=
  match f.group, f.why with
  | _, .full .. => true
  | .launch _, _ => f.at_ ≤ groupVcc s f.group && max (t + spreadTime s f.group) (f.since + 1) ≤ s.now
  | _, _ => true

/-- What becomes of a freeze whose reason may be over: it stays, notes the cycle, or ends. -/
def endFreeze (s : State) (f : Freeze) : Option Freeze :=
  if !freezeOver s f then some f
  else
    let t := f.overAt.getD s.now
    if freezeDone s f t then none else some { f with overAt := some t }

/-- Samples of the monitors that watch the freezes of an agent, at the end of one that has lasted v cycles (R375). -/
def sampleFreeze (v : Nat) (s : State) (f : Freeze) : State :=
  { s with
    spireMon := s.spireMon.map (fun x =>
      if x.2.on && x.2.source == 4 && s.groupOf (.core (64 * (x.1 / 8) + x.2.agent)) == f.group then (x.1, x.2.sample s.now v) else x)
    domeMon := s.domeMon.map (fun x =>
      let p := 64 * (x.1 / 8) + x.2.agent
      if x.2.on && x.2.source == 19 && pairGroup (s.pair p) p == f.group then (x.1, x.2.sample s.now v) else x) }

/-- FREEZE_RELEASE (R353): freezes of a group whose reason is over end once the release has spread. -/
def freezeRelease (g : Group) (s : State) : State :=
  let ended := s.freezes.filter (fun f => f.group == g && (endFreeze s f).isNone)
  let fs := s.freezes.filterMap (fun f => if f.group == g then endFreeze s f else some f)
  ended.foldl (fun s f => sampleFreeze (s.now - f.since) s f) { s with freezes := fs }
def execFreezeRelease (g : Group) (s : State) : Out := .next (freezeRelease g s)

/-! ## The watchdog (R355, R311, R394, R422) -/

/-- The slot that issued what is missing. -/
def missingSlot (s : State) (c : Nat) (w : FreezeWhy) : Pos :=
  let k := s.core c
  match w with
  | .access _ id =>
    ((unlanded s (.core c) (k.ldq ++ k.stq ++ k.out)).find? (fun x => x.id == id)).elim .sc (·.slot)
  | .fill _ id => (k.seq.pend.find? (fun w => w.fill == some id)).elim .ca (·.slot)
  | .copy _ e tag =>
    match (k.eng e).queue.find? (fun r => r.tag == tag) with
    | some r => r.slot
    | none => ((k.eng e).left.find? (fun o => o.tag == tag)).elim .sc (·.slot)
  | .top _ => .mx
  | _ => .sc

/-- The core whose result is missing. -/
def missingCore (s : State) : FreezeWhy → Option Nat
  | .access c _ => some c
  | .fill c _ => some c
  | .copy c _ _ => some c
  | .top t => (look s.tops t).bind (fun x => match x.from_ with | .core c => some c | .command .. => none)
  | .full (.core c) _ => some c
  | .reload c => some c
  | _ => none

/-- The entry that a landing fills. -/
def landingEntry : Landing → Option (QName × Nat)
  | .entry q e _ => some (q, e)
  | .fill q e _ _ => some (q, e)
  | _ => none

/-- A reply that the watchdog has given up lands nowhere: its reserved entry goes. -/
def forget (s : State) (c id : Nat) : State :=
  let un := fun x : Access => if x.id == id then { x with land := .none } else x
  let k := s.core c
  let s := match (unlanded s (.core c) (k.ldq ++ k.stq ++ k.out)).find? (fun x => x.id == id) with
    | some x =>
      (match landingEntry x.land with
       | some (q, e) => s.setEntries (.core c) q ((s.entries (.core c) q).filter (fun y => y.id != e))
       | _ => s)
    | none => s
  { s.modCore c (fun k => { k with ldq := k.ldq.map un, stq := k.stq.map un, out := k.out.map un }) with
    reqs := s.reqs.map un, reps := s.reps.map (fun r => { r with acc := un r.acc }) }

/-- A tile that the watchdog ends is abandoned, with the writes that it has waiting (R311, R394). Its record names operand position 0,
for which the spec gives no value (DESIGN CHOICE, log entry 46). -/
def abandonTile (n k : Nat) (s : State) : State :=
  match look s.tops n with
  | none => s
  | some t =>
    let keep := fun l : List HeldWrite => l.filter (fun h => h.who != .tile n k)
    endTile { s with domes := s.domes.map (fun x => (x.1, { x.2 with held := keep x.2.held, want := keep x.2.want })) } n k t
      (some { startFail 2 cFreezeTimeout 0 t.home 0 with tile := k }) 0

/-- A core whose result is missing takes FREEZE_TIMEOUT. One that has trapped already takes no second trap: its count rises, and in
deterministic mode the slot joins a report that has not left, so that its launch ends with NONDET (R355; DESIGN CHOICE). -/
def missingTrap (s : State) (c : Nat) (pos : Pos) : State :=
  match (s.core c).mode with
  | .trap sent => s.modCore c (fun k =>
    let k := { k with ftoCnt := k.ftoCnt + 1 }
    if !sent && k.detMode then
      { k with faultMask := k.faultMask ||| (1#6 <<< posBit pos)
               cause := (k.cause &&& ~~~(0xFF#48 <<< (8 * posBit pos))) ||| (cFreezeTimeout.setWidth 48 <<< (8 * posBit pos)) }
    else k)
  | _ => takeTrap s (.core c) (oneFault pos cFreezeTimeout FRec.none) (s.core c).seq.pos

/-- The agent whose result is missing takes FREEZE_TIMEOUT; the tile of a pair's service ends. -/
def timeout (f : Freeze) (s : State) : State :=
  match missingCore s f.why with
  | some c =>
    let pos := missingSlot s c f.why
    let s := match f.why with | .access _ id => forget s c id | _ => s
    missingTrap (s.modCore c (fun k => { k with lost := f.why :: k.lost })) c pos
  | none =>
    match f.why with
    | .pairAccess p id =>
      let k := s.pair p
      let x := (unlanded s (.lantern p) (k.ldq ++ k.stq ++ k.out)).find? (fun x => x.id == id)
      takeTrap s (.lanA p) (oneFault (x.elim .ca (·.slot)) cFreezeTimeout FRec.none) (x.elim k.a.pos (·.at_))
    | .tile n k => abandonTile n k s
    | .full (.lanA p) _ => takeTrap s (.lanA p) (oneFault .sc cFreezeTimeout FRec.none) (s.pair p).a.pos
    | _ => s

/-- A freeze that the watchdog ends: it has lasted 1 ms, and its reason is not over (R355). -/
def freezeOld (s : State) (f : Freeze) : Bool := f.since + 800000 ≤ s.now && f.overAt.isNone

/-- FREEZE_TIMEOUT (R355, R311): a freeze of 1 ms ends, and the agent whose result is missing takes the trap. -/
def freezeTimeout (g : Group) (s : State) : State :=
  match s.freezes.find? (fun f => f.group == g && freezeOld s f) with
  | none => s
  | some f => timeout f (sampleFreeze (s.now - f.since) { s with freezes := s.freezes.filter (fun x => x != f) } f)
def execFreezeTimeout (g : Group) (s : State) : Out := .next (freezeTimeout g s)

/-! ## The power governor (R370, R371) -/

def windowSum (k : Core) : Nat := k.window.foldl (· + ·) 0

/-- Whether a member of a core's group, one that has been freed since among them, has asked for a power-freeze cycle before the present
VCC (R371). -/
def powerAsked (s : State) (c : Nat) : Bool :=
  !(s.core c).pfDone &&
    ((coreMembers s (s.groupOf (.core c))).any (fun d => (s.core d).pfAt.any (· ≤ (s.core d).seq.vcc)) ||
      ((s.core c).launch.bind s.launchOf).any (fun L => L.pfAsk.contains (s.vccOf c))) &&
    !s.freezes.any (fun f => f.group == s.groupOf (.core c) && f.why == .power)

/-- POWER_FREEZE (R371): the group of the core inserts one power-freeze cycle before the present VCC. -/
def powerFreeze (c : Nat) (s : State) : State :=
  if coreRuns (s.core c) && powerAsked s c then
    { s with freezes := s.freezes ++
      [{ group := s.groupOf (.core c), why := .power, at_ := s.vccOf c, since := s.now, overAt := none }] }
  else s
def execPowerFreeze (c : Nat) (s : State) : Out := .next (powerFreeze c s)

/-- The weight of the matrix unit in the present cycle beside those of its microinstructions (R174): the rows of a UMAC or a
UZACC, a drain between its rows, a wait, and a B load. The spec gives no weight to a mix of TF8, TF6 and INT8 rings, where the format
of ring A counts, nor to a cycle in which a UMAC waits for its bank or a UFETB for the load path, which weighs 1 (DESIGN CHOICE). -/
def mxWaitWeight (k : Core) : Nat :=
  let x := k.mx
  let t := k.seq.vcc
  let act :=
    if x.fault.isSome then 0
    else
      match x.rows, x.mseq with
      | some r, some m =>
        if r.from_ + r.count ≤ t then (if x.freeAt ≤ t && !stopping k then 1 else 0)
        else if r.mac then umacWeight (((ringAt x m.ra).conf.map (·.fmt)).getD 0) else 6
      | _, _ =>
        if !x.running || (stopping k && x.freeAt ≤ t) then 0
        else
          match x.queue.head? with
          | some (.mdrain ..) => 10
          | _ => if x.freeAt ≤ t then 1 else 0
  act + (if x.loadFrom ≤ t && t < x.loadEnd then 8 else 0)

/-- The weight of a copy engine that is moving data (R370): in deterministic mode from the nominal start of a command to its deadline,
so that it is the same in every rerun (R354; DESIGN CHOICE). -/
def engWeight (s : State) (c : Nat) (x : CopyEngine) : Nat :=
  let moving := fun r : CopyRun =>
    if (s.core c).detMode then runFrom s c r ≤ s.vccOf c && s.vccOf c < r.deadline else r.started && !r.finished
  if x.queue.any moving then 6 else 0

/-- The window after a governor cycle of weight w; a power-freeze cycle that stood before it weighs 0. -/
def pushWindow (k : Core) (w : Nat) : List Nat := (w :: (if k.pfDone then [0] else []) ++ k.window).take 64

/-! ## The tick -/

/-- A core's VCC goes on: its window takes the cycle, with the weight `eng` of its engines, and a sum above PWRLIM asks for a
power-freeze cycle G later. -/
def advanceCore (lead eng : Nat) (k : Core) : Core :=
  let win := pushWindow k (k.nowW + mxWaitWeight k + eng)
  let t := k.seq.vcc + 1
  let k := { k with seq := { k.seq with vcc := t }, window := win, nowW := 0, pfDone := false,
                    pfAt := k.pfAt.filter (fun x => t ≤ x), done := k.done.filter (fun x => t < x.late) }
  if k.pwrLim < windowSum k then { k with pfAt := k.pfAt ++ [t + lead] } else k

/-- A wait at MWAIT ends once the commands before it have retired (R170). -/
def wakeMwait (k : Core) : Core :=
  k.liveWaits.foldl (fun k w =>
    match w with
    | .mwait n => if n ≤ k.mx.retired then wakeCore k w k.seq.vcc else k
    | _ => k) k

/-- What comes due in a core at its new VCC: plain writes, local stores, forwarding entries, B loads, MWAIT, UIRET. -/
def dueCore (c : Nat) (s : State) : State :=
  let s := settleStores (.core c) (settle (.core c) s)
  let s := s.modCore c (fun k => { k with fwd := k.fwd.filter (fun f => f.due.all (fun d => k.seq.vcc < d)) })
  uiretDone c ((tickMx c s).modCore c wakeMwait)

/-- The cycle's own notes of a core end with it; its memories have corrected what single-bit errors they met (R169, R182, R345). -/
def cycleCore (s : State) (c : Nat) (k : Core) : Core :=
  { k with stored := [], copied := [], ceCnt := (k.ceCnt + Config.corrected c s.now) % 2 ^ 64 }

/-- One cycle of a core: its group's VCC goes on, or a freeze counts. -/
def tickCore (s : State) (c : Nat) : State :=
  if !coreRuns (s.core c) then s
  else
    let k := cycleCore s c (s.core c)
    let g := s.groupOf (.core c)
    let stops := s.freezes.filter (fun f => f.group == g && f.at_ ≤ k.seq.vcc)
    if stops.any (fun f => f.why == .power) then
      s.setCore c { k with frzCnt := (k.frzCnt + 1) % 2 ^ 64, pfDone := true }
    else if !stops.isEmpty then s.setCore c { k with lateFrz := (k.lateFrz + 1) % 2 ^ 64 }
    else dueCore c (s.setCore c (advanceCore (leadTime s g) (engWeight s c k.eng0 + engWeight s c k.eng1) k))

/-- A pair's VCC goes on, and its window takes the cycle, with a power-freeze cycle of its group before it (R371, R372). -/
def advancePair (k : Pair) : Pair :=
  { k with a := { k.a with vcc := k.a.vcc + 1 }, e := { k.e with vcc := k.e.vcc + 1 },
           done := k.done.filter (fun x => k.a.vcc + 1 < x.late),
           window := (k.nowW :: (if k.pfDone then [0] else []) ++ k.window).take 64, nowW := 0, pfDone := false }

/-- One cycle of a pair: its threads go on, or LFRZ counts, for a pair of the service too (R311). -/
def tickPair (s : State) (p : Nat) : State :=
  let k := s.pair p
  let k := { k with ceCnt := (k.ceCnt + Config.corrected (8192 + p) s.now) % 2 ^ 64 }
  if s.frozen (.lanA p) then
    s.setPair p { k with lfrz := (k.lfrz + 1) % 2 ^ 64,
                         pfDone := k.pfDone || s.freezes.any (fun f => f.group == pairGroup k p && f.why == .power) }
  else if !pairRuns k then s.setPair p k
  else settle (.lanE p) (settleStores (.lanA p) (settle (.lanA p) (s.setPair p (advancePair k))))

/-- A power-freeze cycle has passed, and a freeze that has not stopped its group yet has not begun. -/
def tickFreeze (s : State) (f : Freeze) : Option Freeze :=
  match f.why with
  | .power => none
  | _ => some (if f.at_ ≤ groupVcc s f.group then f else { f with since := s.now + 1 })

/-- The clock advances: freezes are judged by the VCC of the cycle that ends, in which a power-freeze cycle ends too. -/
def tick (s : State) : State :=
  let fs := s.freezes.filterMap (tickFreeze s)
  let s := (s.freezes.filter (fun f => f.why == .power)).foldl (sampleFreeze 1) s
  let s' := (s.cores.map (·.1)).foldl tickCore s
  let s'' := ((s.pairs.map (·.1)) ++ (servingPairs s).filter (fun p => (look s.pairs p).isNone)).foldl tickPair s'
  { s'' with now := s.now + 1, freezes := fs }

end Sys2Proof.Machine
end

