-- ==== Sys2Proof/Machine/Marks.lean ====
section
/-! DEFINITION. The marks of a bundle: restart, quiet region and its overrun, END (R23, R59, R108, R109, R307, R309, R379,
R380). Each acts on the agent of the bundle at hand. -/

namespace Sys2Proof.Machine

/-- What a restart mark keeps (R379): the core right before its mark bundle issues. -/
def takeSnap (pos : Nat) (k : Core) : Snapshot :=
  { pos := pos, queues := k.seq.queues, preds := k.seq.preds, loops := k.loops, pendNest := k.pendNest,
    actNest := k.actNest, rstack := k.seq.rstack, handles := k.handles, streams := k.streams, kregs := k.kregs,
    descs := k.descs, holds := k.seq.holds, quiet := k.quiet, uivec := k.uivec, uiEnable := k.uistat.getLsbD 3,
    bells := k.bells, pendRegs := k.seq.pend }

/-- The agent at hand, where it is a core. -/
def onCore (s : State) (f : Nat → State) : State := match s.cur.agent with | .core c => f c | _ => s

/-- RESTART_MARK (R379, R380): the snapshot is taken, then the gated store buffer is released. -/
def restartMark (s : State) : State :=
  onCore s (fun c =>
    releaseGated c (s.modCore c (fun k => { k with snap := some (takeSnap s.cur.pos k), markNext := false })))
def execRestartMark (s : State) : Out := .next (restartMark s)

/-- QUIET_BEGIN (R59, R108): a region opens that counts no bundle yet. -/
def quietBegin (s : State) : State :=
  onCore s (fun c => s.modCore c (fun k => if k.quiet.isSome then k else { k with quiet := some 0 }))
def execQuietBegin (s : State) : Out := .next (quietBegin s)

/-- A region closes; a stop request that it has held waits for the entries to land (R109). -/
def closeQuiet (k : Core) : Core := { k with quiet := none, stopHeld := k.stopHeld || (k.quiet.isSome && k.stopReq) }

/-- QUIET_END (R59, R109). -/
def quietEnd (s : State) : State := onCore s (fun c => s.modCore c closeQuiet)
def execQuietEnd (s : State) : Out := .next (quietEnd s)

/-- REGION_OVERRUN (R108, R422): the 257th bundle of a region traps, and the region closes. -/
def regionOverrun (s : State) : State :=
  onCore s (fun c =>
    match (s.core c).quiet with
    | some n => if n < 256 then s else takeTrap s (.core c) (oneFault .sc cRegionOverrun FRec.none) s.cur.pos
    | none => s)
def execRegionOverrun (s : State) : Out := .next (regionOverrun s)

/-- A core after its END bundle (R23, R126): the region closes, holds and the nest go, and fetch stops. A wait that the
bundle committed ends first. -/
def endCore (k : Core) : Core :=
  { closeQuiet k with
    actNest := none
    seq := { k.seq with holds := [] }
    mode := (match k.mode with | .run => (if k.waits.isEmpty then .ended else .run) | m => m) }

/-- END (R23, R307, R309, R364, R380). -/
def endBundle (s : State) : State :=
  match s.cur.agent with
  | .core c => excuseEnd c ((releaseGated c s).modCore c endCore)
  | .lanA p => s.modPair p (fun k => { k with haltA := true })
  | .lanE p => s.modPair p (fun k => { k with segment := some s.cur.pos, e := { k.e with holds := [], nextAt := k.e.vcc + 1 } })
def execEndBundle (s : State) : Out := .next (endBundle s)

end Sys2Proof.Machine
end

