-- ==== Sys2Proof/Machine/Lantern.lean ====
section
/-! DEFINITION. User lantern programs: load, segment ends, halts and faults (R302, R307 to R309, R313). -/

namespace Sys2Proof.Machine

/-! ## Loading (R308) -/

/-- A scalar queue that holds one value. -/
def oneEntry (n : Nat) (v : W64) : QName × List Entry := (⟨.x, n⟩, [{ id := 0, due := 0, data := some (toV v), poison := none }])

/-- A thread at load: its program, and its scalar queues. -/
def loadThread (prog : Option (List (BitVec 16) × List (BitVec 384))) (qs : List (QName × List Entry)) : Seq :=
  { Seq.empty with nid := 1, queues := qs, code := (prog.map (·.1)).getD [], dict := (prog.map (·.2)).getD [] }

/-- A pair at load. A deterministic launch's pair waits for the dispatch release (R349). -/
def loadPair (n : Nat) (L : Launch) (p : Nat) (k : Pair) : Pair :=
  { Pair.fresh with
    a := loadThread L.image.lantA [oneEntry 0 (BitVec.ofNat 64 (p / 64)), oneEntry 1 (BitVec.ofNat 64 (p % 64)), oneEntry 2 L.cmd.larg]
    e := loadThread L.image.lantE []
    launch := some n
    loaded := !L.detMode
    detMode := L.detMode
    haltA := L.image.lantA.isNone
    haltE := L.image.lantE.isNone
    ceCnt := k.ceCnt
    ueCnt := k.ueCnt }

/-- Lantern memory is zero at load; nothing that stood there stays uncorrectable. -/
def clearLantern (p : Nat) (s : State) : State :=
  let lo := lanternBase p
  { s with mem := s.mem.clear lo (lo + 65536), bad := s.bad.filter (fun u => u < lo || lo + 65536 ≤ u) }

/-- LANTERN_LOAD (R308): the pairs of a dome take a launch's programs once its tile queue is empty and no other program
runs there. -/
def lanternLoad (n d : Nat) (s : State) : State :=
  match s.launchOf n with
  | none => s
  | some L =>
    let ps := L.pairsLeft.filter (fun p => p / 64 == d && (s.pair p).launch != some n)
    if ps.isEmpty || !(s.dome d).tileQ.isEmpty || (s.dome d).userPairs.isSome then s
    else
      let s := ps.foldl (fun s p => (clearLantern p s).modPair p (loadPair n L p)) s
      s.modDome d (fun k => { k with userPairs := some n })
def execLanternLoad (n d : Nat) (s : State) : Out := .next (lanternLoad n d s)

/-! ## Segment ends (R307, R309) -/

def setPairFault (s : State) (p : Nat) (f : LFault) : State := s.modPair p (fun k => { k with faulted := some f })

/-- A token fault stands against both slots of the E-thread, at the END bundle. -/
def tokenFault (at_ : Nat) (cz : BitVec 8) : LFault :=
  lanternReport true [{ slot := .va, cause := cz, frec := FRec.none }, { slot := .vb, cause := cz, frec := FRec.none }] at_

/-- The head of x62 as a segment end finds it. -/
def tokenHead (k : Pair) : Option Entry := (k.e.entries ⟨.x, 62⟩).head?

/-- A segment end acts now: its cycle has come, and x62 either holds a due entry or is empty after the A-thread's halt. -/
def segmentReady (s : State) (p : Nat) : Bool :=
  let k := s.pair p
  pairRuns k && k.segment.isSome && !k.haltE && k.e.nextAt ≤ k.e.vcc && !s.frozen (.lanE p) &&
    (match tokenHead k with
     | some e => e.data.isSome && e.due ≤ k.e.vcc
     | none => k.haltA)

/-- LANTERN_SEGMENT_END: the E-thread pops a token: the position of its next segment, or its halt. -/
def lanternSegmentEnd (p : Nat) (s : State) : State :=
  if !segmentReady s p then s
  else
    let k := s.pair p
    let at_ := k.segment.getD 0
    match tokenHead k with
    | none => s.setPair p { k with haltE := true, segment := none }
    | some e =>
      let v := (toX (e.data.getD 0)).toNat
      let q := k.e.setEntries ⟨.x, 62⟩ ((k.e.entries ⟨.x, 62⟩).drop 1)
      if e.poison.isSome then setPairFault s p (tokenFault at_ cAccError)
      else if 2 ^ 63 ≤ v then s.setPair p { k with haltE := true, segment := none, e := q }
      else if 2 ^ 24 ≤ v || k.e.code.length ≤ v then setPairFault s p (tokenFault at_ causeIllegalIndex)
      else s.setPair p { k with segment := none, e := { q with pos := v, nextAt := q.vcc + 1 } }
def execLanternSegmentEnd (pr : Nat) (s : State) : Out := .next (lanternSegmentEnd pr s)

/-! ## Halt and fault (R309, R313) -/

/-- The store queue of a pair has drained. -/
def pairDrained (k : Pair) : Bool := k.stq.isEmpty && !k.out.any (fun x => isStoreKind x.kind)

/-- A halted pair as it stands until its next load: its counters stay. -/
def haltedPair (k : Pair) : Pair :=
  { Pair.fresh with qUnder := k.qUnder, lfrz := k.lfrz, ceCnt := k.ceCnt, ueCnt := k.ueCnt }

/-- LANTERN_HALT (R309): both threads have halted and every store is performed. The last pair of a dome gives it back to
the firmware service. -/
def lanternHalt (p : Nat) (s : State) : State :=
  let k := s.pair p
  match k.launch with
  | none => s
  | some n =>
    if !(k.haltA && k.haltE) || !pairDrained k || k.faulted.isSome then s
    else
      let s := s.setPair p (haltedPair k)
      let other := fun x : Access => x.src != .lantern p
      let s := { s with reqs := s.reqs.filter other, reps := s.reps.filter (fun r => other r.acc) }
      let s := s.modLaunch n (fun L => { L with pairsLeft := L.pairsLeft.filter (· != p) })
      if s.pairs.any (fun x => x.1 / 64 == p / 64 && x.2.launch == some n) then s
      else s.modDome (p / 64) (fun d => { d with userPairs := none, haltAt := s.now })
def execLanternHalt (pr : Nat) (s : State) : Out := .next (lanternHalt pr s)

/-- Detail of status LANTERN (R326). -/
def lanternDetail (p : Nat) (f : LFault) : W64 :=
  BitVec.ofNat 64 (p / 64 + p % 64 * 2 ^ 8 + (if f.thread then 2 ^ 16 else 0) + f.pos % 2 ^ 24 * 2 ^ 24 +
    f.mask.toNat * 2 ^ 48 + firstByte f.mask f.causes * 2 ^ 56)

/-- The pairs of a launch that holds no core any more, after a lantern fault, are stopped (R309): while it holds one they run on
(R313). -/
def stopLeft (n : Nat) (s : State) : State :=
  match s.launchOf n with
  | none => s
  | some L =>
    if L.active.isEmpty && L.ending.any (fun e => e.status == 7) then
      let mine := L.pairsLeft.filter (fun p => (s.pair p).launch == some n)
      mine.foldl (fun s p => s.modPair p stopPair) (s.modLaunch n (fun L => { L with pairsLeft := mine }))
    else s

/-- LANTERN_FAULT (R313): the scheduler of the pair's spire records the report, the first of which gives the launch status LANTERN; the
pair stops. -/
def reportPair (p : Nat) (s : State) : State :=
  let k := s.pair p
  match k.launch, k.faulted with
  | some n, some f =>
    let s := s.modLaunch n (fun L =>
      { L with ending := (match L.ending with | some x => some x | none => some { status := 7, detail := lanternDetail p f })
               pairReports := L.pairReports ++ [(p, f)] })
    stopLeft n (s.setPair p { stopPair k with faulted := none })
  | _, _ => s
def execLanternFault (pr : Nat) (s : State) : Out := .next (reportPair pr s)

end Sys2Proof.Machine
end

