-- ==== Sys2Proof/Machine/Firm.lean ====
section
/-! DEFINITION. The firmware: reads and writes by virtual address, queue headers (R314, R315), commands (R316), leaders
(R328), arbitration (R317, R329), and completion records with their interrupts (R326, R327, R400). -/

namespace Sys2Proof.Machine

/-! ## Memory by virtual address -/

/-- What a firmware access to a virtual range meets. -/
inductive VaRes where
  | ok (ps : List (Nat × Nat))
  /-- a page of the range is moving (R341) -/
  | wait
  /-- the first page that is not mapped, lies in no memory that may serve, or lacks a permission -/
  | bad (va : Nat)

/-- Classes that a queue header, its ring and an event counter may lie in: dome memory, a CLM, host memory (R314, R321). -/
def firmClass (pa : Nat) : Bool := paClass pa == 0 || paClass pa == 8 || paClass pa == 12

/-- The physical pieces of a virtual range up to hi, cut at the given multiples. -/
def pieceList (s : State) (rd wr : Bool) (step hi lo : Nat) : List Nat → VaRes
  | [] => .ok []
  | g :: l =>
    let va := max lo g
    match if va < 2 ^ 56 then s.translate va else none with
    | none => .bad va
    | some (pa, lf) =>
      if (rd && !lf.read) || (wr && !lf.write) then .bad va
      else if lf.moving then .wait
      else
        match pieceList s rd wr step hi lo l with
        | .ok ps => .ok ((pa, min hi (g + step) - va) :: ps)
        | r => r

def vaPieces (s : State) (rd wr : Bool) (step va n : Nat) : VaRes :=
  pieceList s rd wr step (va + n) va (stepsOf va n step)

/-- The same where only memory of this panel and of its host may serve. -/
def vaNear (s : State) (rd wr : Bool) (step va n : Nat) : VaRes :=
  match vaPieces s rd wr step va n with
  | .ok ps => if ps.all (fun x => firmClass x.1) then .ok ps else .bad va
  | r => r

/-- What a firmware read ends in. -/
inductive FirmGot where
  | ok (bs : List Byte)
  | wait
  | bad (va : Nat)

/-- Bytes of physical pieces, each within 64 bytes. -/
def firmBytes (s : State) (va : Nat) (ps : List (Nat × Nat)) : FirmGot :=
  if ps.any (fun x => s.badRead x.1 x.2) then .bad va
  else if ps.any (fun x => s.mustWait whoFirm x.1 x.2) then .wait
  else .ok (ps.flatMap (fun x => s.mem.read x.1 x.2))

/-- The bytes of a range that has been translated. -/
def piecesGot (s : State) (va : Nat) : VaRes → FirmGot
  | .ok ps => firmBytes s va ps
  | .wait => .wait
  | .bad v => .bad v

/-- What a refused read of the firmware leaves at its homes (R198, R202). -/
def readNoted (s : State) (va n : Nat) : State :=
  match vaPieces s true false 64 va n with
  | .ok ps => noteBads s ((ps.filter (fun x => s.badRead x.1 x.2)).map (·.1))
  | _ => s

/-- A read by the firmware: a poisoned block or an error response is no answer (R314, R319). -/
def firmRead (s : State) (va n : Nat) : FirmGot := piecesGot s va (vaPieces s true false 64 va n)

/-- Deals bytes out over physical pieces. -/
def dealBytes : List (Nat × Nat) → List Byte → List (Nat × List Byte)
  | [], _ => []
  | (a, n) :: l, bs => (a, bs.take n) :: dealBytes l (bs.drop n)

/-- What a firmware write ends in. -/
inductive FirmPut where
  | ok (s : State)
  | wait (s : State)
  | bad (s : State)

/-- A write by the firmware for a command; all or none of it is performed. -/
def firmWrite (s : State) (q slot va : Nat) (bs : List Byte) : FirmPut :=
  match vaPieces s false true 64 va bs.length with
  | .ok ps =>
    (match writePieces s whoFirm (.command q slot) (tilePieces (dealBytes ps bs)) s with
     | .ok s' => .ok s'
     | .wait s' => .wait s'
     | .err s' => .bad s')
  | .wait => .wait s
  | .bad _ => .bad s

/-- A report of R417 is over, and ATTSTAT takes a value, or reads 1 where another report is still to be written. -/
def attOver (stat : W64) (s : State) : State :=
  { s with fw := { s.fw with attJobs := s.fw.attJobs.drop 1, attStat := if 2 ≤ s.fw.attJobs.length then 1 else stat } }

/-! ## Leaders (R328) -/

/-- The first eligible spire for a queue, apart from those in a list: it is live, neither throttled nor drained (R328). -/
def leaderBut (s : State) (out : List Nat) (q : Nat) : Option Nat :=
  ((List.range 128).map (fun i => (37 * q + i) % 128)).find? (fun sp => !(s.liveCores sp).isEmpty && !out.contains sp && !s.fw.noLead.contains sp)
def leaderOf (s : State) (q : Nat) : Option Nat := leaderBut s [] q

/-! ## Queue headers (R314) -/

structure QHdr where
  ring : Nat
  nslots : Nat
  wr : Nat
  rd : Nat
  prio : Nat
  port : Nat
  cring : Nat
  ncslots : Nat
  thread : BitVec 32
  deriving DecidableEq, Repr

def slotsOk (n lo hi : Nat) : Bool := lo ≤ n && n ≤ hi && 2 ^ Nat.log2 n == n

def bytesAt (bs : List Byte) (o n : Nat) : Nat := ofBytes ((bs.drop o).take n)

/-- A queue header that keeps the table of R314, enabled, with no more commands than slots. -/
def qhdrOf (bs : List Byte) : Option QHdr :=
  let w := bytesAt bs
  let h : QHdr :=
    { ring := w 0 8, nslots := w 8 4, wr := w 12 4, rd := w 16 4, prio := w 20 1 % 4, port := w 20 1 / 4 % 4, cring := w 24 8,
      ncslots := w 32 4, thread := BitVec.ofNat 32 (w 36 4) }
  if h.ring % 128 == 0 && h.ring < 2 ^ 56 && slotsOk h.nslots 16 65536 && used32 h.wr h.rd ≤ h.nslots && w 20 1 / 16 == 1 &&
      w 21 3 == 0 && h.cring % 32 == 0 && paClass h.cring == 12 && slotsOk h.ncslots 16 65536 && w 40 24 == 0 then some h
  else none

def hdrVa (s : State) (q : Nat) : Nat := s.fw.qtab + 64 * q

/-- A queue that cannot be served: it stays so until its next post (R314). -/
def queueBad (s : State) (q leader : Nat) : State :=
  postNote (s.modQueue q (fun k => { k with served := false, posted := false }))
    { code := 1, source := 1, index := leader, w0 := BitVec.ofNat 64 q, w1 := 0 }

/-- The header as the leader finds it: read whole, and its page writable. -/
def headerGot (s : State) (q : Nat) : FirmGot := piecesGot s (hdrVa s q) (vaNear s true true 64 (hdrVa s q) 64)

/-- Takes a header into the firmware; a command that was head already keeps its waiting time. -/
def takeHeader (s : State) (q leader : Nat) (h : QHdr) : State :=
  s.modQueue q (fun k =>
    let same := k.served && k.rdptr == h.rd && k.rdptr != k.wrptr
    { k with
      served := true
      posted := false
      ring := h.ring
      nslots := h.nslots
      wrptr := h.wr
      rdptr := h.rd
      prio := h.prio
      port := h.port
      cring := h.cring
      ncslots := h.ncslots
      thread := h.thread
      leader := some leader
      headSince := if same then k.headSince else s.now
      promoted := if same then k.promoted else 0 })

/-- A leader reads the header of its queue; a bad one is reported where `loud`. A header that memory makes wait is read later. -/
def readHeader (loud : Bool) (q : Nat) (s : State) : State :=
  match leaderOf s q with
  | none => s
  | some l =>
    let bad := fun s => if loud then queueBad s q l else s.modQueue q (fun k => { k with served := false, posted := false })
    match headerGot s q with
    | .wait =>
      if loud then s.modQueue q (fun k => { k with posted := true })
      else { s with fw := { s.fw with unread := s.fw.unread.filter (· != q) ++ [q] } }
    | .bad _ => bad (readNoted s (hdrVa s q) 64)
    | .ok bs =>
      match qhdrOf bs with
      | some h => takeHeader s q l h
      | none => bad s

def isReady (s : State) : Bool := s.fw.stage == 7

/-- POST (R315, R399): the queue's header is read; before the panel is ready a post is not served (R413). -/
def post (q : Nat) (s : State) : State :=
  if isReady s then
    readHeader true q { s.modQueue q (fun k => { k with posted := true }) with fw := { s.fw with unread := s.fw.unread.filter (· != q) } }
  else s
def execPost (q : Nat) (s : State) : Out := .next (post q s)

/-- LEADER_HANDOVER (R328): the new leader of a queue reads its header again; rdptr stands committed in memory. -/
def leaderHandover (q : Nat) (s : State) : State :=
  let k := s.queue q
  if !isReady s || k.leader == leaderOf s q || !(k.served || k.posted) then s
  else
    match leaderOf s q with
    | none => s.modQueue q (fun k => { k with leader := none })
    | some _ => readHeader true q s
def execLeaderHandover (q : Nat) (s : State) : Out := .next (leaderHandover q s)

/-- COMMAND_QUEUE_PROMOTION (R329): a head that has waited 4 ms at a level drops to the next. -/
def promote (q : Nat) (s : State) : State :=
  let k := s.queue q
  if k.served && k.rdptr != k.wrptr then
    s.modQueue q (fun k => { k with promoted := max k.promoted ((s.now - k.headSince) / 3200000) })
  else s
def execCommandQueuePromotion (q : Nat) (s : State) : Out := .next (promote q s)

/-! ## Commands (R316 to R325) -/

/-- The offset of the first faulty field among those listed. -/
def firstBad (l : List (Nat × Bool)) : Option Nat :=
  ((l.filter (·.2)).map (·.1)).foldl (fun m o => match m with | none => some o | some k => some (min k o)) none

/-- Payload bytes outside a command's fields are zero. -/
def strayByte (bs : List Byte) (fields : List (Nat × Nat)) : List (Nat × Bool) :=
  (List.range 128).map (fun i => (i, 8 ≤ i && !fields.any (fun f => f.1 ≤ i && i < f.1 + f.2) && bs.getD i 0 != 0))

/-- One command's fields, what is wrong with them, and the instruction they spell. -/
structure CmdForm where
  fields : List (Nat × Nat)
  faults : List (Nat × Bool)
  instr : Instr

def formLaunch (h : CmdHdr) (w : Nat → Nat → Nat) : CmdForm :=
  let f : LaunchCmd :=
    { image := w 8 8, base := w 16 2, gx := w 18 2, gy := w 20 2, det := (w 22 1).testBit 0, resume := (w 22 1).testBit 1,
      spillovf := w 24 8, larg := BitVec.ofNat 64 (w 32 8), ldome := w 40 1, ndome := w 41 1, ctx := w 48 8 }
  { fields := [(8, 8), (16, 2), (18, 2), (20, 2), (22, 1), (24, 8), (32, 8), (40, 1), (41, 1), (48, 8)]
    faults := [(8, f.image % 64 != 0), (16, 8191 < f.base), (18, f.gx < 1 || 8192 < f.gx || 8192 < f.gx * f.gy),
               (20, f.gy < 1 || 8192 < f.gy), (22, w 22 1 / 4 != 0), (24, f.spillovf % 2 ^ 24 != 0),
               (40, 127 < f.ldome || (f.ndome ≤ 128 && 128 < f.ldome + f.ndome)), (41, 128 < f.ndome), (48, f.ctx % 64 != 0)]
    instr := if f.resume then .launchResume h f else .launch h f }

def topOpc (n : Nat) : Bool := (0x10 ≤ n && n ≤ 0x1B) || (0x20 ≤ n && n ≤ 0x22)

def formTop (h : CmdHdr) (w : Nat → Nat → Nat) : CmdForm :=
  let f : TopCmd := { opc := w 8 1, aux := BitVec.ofNat 8 (w 9 1), dd := w 16 8, ds1 := w 24 8, ds2 := w 32 8 }
  { fields := [(8, 1), (9, 1), (16, 8), (24, 8), (32, 8)]
    faults := [(8, !topOpc f.opc), (9, topOpc f.opc && !topAuxOk f.opc f.aux), (32, topOpc f.opc && !topTwo f.opc && f.ds2 != 0)]
    instr := .top h f }

/-- A length outside its table gives no ranges that could overlap. -/
def formCopy (h : CmdHdr) (w : Nat → Nat → Nat) : CmdForm :=
  let f : CopyCmd := { src := w 8 8, dst := w 16 8, len := w 24 8 }
  let far := f.len < 1 || 2 ^ 40 < f.len
  { fields := [(8, 8), (16, 8), (24, 8)]
    faults := [(8, !far && f.src < f.dst + f.len && f.dst < f.src + f.len), (24, far)]
    instr := .copy h f }

def formWaitev (h : CmdHdr) (w : Nat → Nat → Nat) : CmdForm :=
  { fields := [(8, 8), (16, 8)]
    faults := [(8, w 8 8 % 8 != 0)]
    instr := .waitev h { counter := w 8 8, value := BitVec.ofNat 64 (w 16 8) } }

def formSignal (h : CmdHdr) (w : Nat → Nat → Nat) : CmdForm :=
  { fields := [(8, 8), (16, 8), (24, 1)]
    faults := [(8, w 8 8 % 8 != 0), (24, 1 < w 24 1)]
    instr := .signal h { counter := w 8 8, value := BitVec.ofNat 64 (w 16 8), store := w 24 1 == 1 } }

/-- MAP, UNMAP and MIGRATE (R322): the page count, the page's place and the range within the virtual space, which the first page
decides with the count (R316). -/
def formPages (op : Nat) (h : CmdHdr) (w : Nat → Nat → Nat) : CmdForm :=
  let target := if op == 6 then w 32 8 else if op == 8 then w 32 1 else 0
  let f : PagesCmd :=
    { va := w 8 8, count := w 16 8, large := (w 24 1).testBit 0, read := (w 24 1).testBit 1, write := (w 24 1).testBit 2,
      target := target }
  let n := pageSize f.large
  { fields := [(8, 8), (16, 8), (24, 1)] ++ (if op == 6 then [(32, 8)] else if op == 8 then [(32, 1)] else [])
    faults := [(8, f.va % n != 0 || 2 ^ 56 < f.va + max 1 f.count * n), (16, f.count < 1 || 2 ^ 24 < f.count),
               (24, w 24 1 / 8 != 0), (32, op == 8 && 127 < target), (32, op == 6 && target % n != 0)]
    instr := if op == 6 then .mapPages h f else if op == 7 then .unmap h f else .migrate h f }

def formBalloon (h : CmdHdr) (w : Nat → Nat → Nat) : CmdForm :=
  let f : BalloonCmd := { dome := w 8 1, page := w 16 8, count := w 24 8 }
  { fields := [(8, 1), (9, 1), (16, 8), (24, 8)]
    faults := [(8, 127 < f.dome), (9, 1 < w 9 1), (16, f.page % 65536 != 0)]
    instr := if w 9 1 == 0 then .balloonDonate h f else .balloonReclaim h f }

def formSetmode (h : CmdHdr) (w : Nat → Nat → Nat) : CmdForm :=
  let f : SetmodeCmd := { spire := w 9 1, value := w 16 8 }
  let item := w 8 1
  { fields := [(8, 1), (9, 1), (16, 8)]
    faults := [(8, 2 < item), (9, item == 0 && 128 ≤ f.spire && f.spire != 255),
               (16, if item == 0 then 64 < f.value else if item == 1 then 1000 < f.value
                    else item == 2 && (f.value < 20000 || 34000 < f.value))]
    instr := if item == 0 then .setmodeRisePool h f else if item == 1 then .setmodeCoalesce h f else .setmodePowerLimit h f }

def formPreempt (h : CmdHdr) (w : Nat → Nat → Nat) : CmdForm :=
  { fields := [(8, 4), (12, 4)], faults := [(8, 63 < w 8 4)], instr := .preempt h { queue := w 8 4, slot := w 12 4 } }

/-- The form of an opcode, none where it is refused (R316). -/
def cmdForm (op : Nat) (h : CmdHdr) (w : Nat → Nat → Nat) : Option CmdForm :=
  match op with
  | 1 => some (formLaunch h w)
  | 2 => some (formTop h w)
  | 3 => some (formCopy h w)
  | 4 => some (formWaitev h w)
  | 5 => some (formSignal h w)
  | 6 => some (formPages 6 h w)
  | 7 => some (formPages 7 h w)
  | 8 => some (formPages 8 h w)
  | 9 => some (formBalloon h w)
  | 10 => some (formSetmode h w)
  | 11 => some { fields := [], faults := [], instr := .fenceCommand h }
  | 12 => some { fields := [], faults := [], instr := .complete h }
  | 13 => some (formPreempt h w)
  | _ => none

/-- A command as read from its slot: its header, its instruction, and the offset of its first faulty field where it is
refused. -/
structure CmdRead where
  hdr : CmdHdr
  instr : Instr
  bad : Option Nat
  deriving DecidableEq, Repr

def decodeCommand (q slot : Nat) (bs : List Byte) : CmdRead :=
  let w := bytesAt bs
  let h : CmdHdr :=
    { q := q, slot := slot, op := BitVec.ofNat 8 (w 0 1), wantRec := (w 1 1).testBit 0, after := (w 1 1).testBit 1,
      utag := BitVec.ofNat 32 (w 4 4) }
  let resv := [(1, w 0 4 / 2 ^ 10 != 0)]
  match cmdForm (w 0 1) h w with
  | none => { hdr := h, instr := .fenceCommand h, bad := some 0 }
  | some f => { hdr := h, instr := f.instr, bad := firstBad (resv ++ f.faults ++ strayByte bs f.fields) }

/-! ## Running commands -/

def State.runOf (s : State) (q slot : Nat) : Option RunCmd :=
  (s.queue q).running.find? (fun r => r.hdr.slot == slot && r.done.isNone)
def State.modRun (s : State) (q slot : Nat) (f : RunCmd → RunCmd) : State :=
  s.modQueue q (fun k => { k with running := k.running.map (fun r =>
    if r.hdr.slot == slot && r.done.isNone then f r else r) })

/-- What a command does when it stands started and uncompleted; at any other time its step changes nothing. -/
def whenRunning (h : CmdHdr) (s : State) (f : RunCmd → State) : State :=
  match s.runOf h.q h.slot with
  | some r => if r.hdr == h then f r else s
  | none => s

/-- An earlier command of the queue has not completed (R317). -/
def earlierOpen (s : State) (q slot : Nat) : Bool :=
  ((s.queue q).running.takeWhile (fun r => r.hdr.slot != slot)).any (fun r => r.done.isNone)

def complete (h : CmdHdr) (status : Nat) (detail : W64) (s : State) : State := completeCmd h.q h.slot status detail s

/-! ## The cores of a launch (R17, R24) -/

/-- The cores that a launch's grid takes, in logical order (R17). -/
def eligible (s : State) (sp : Nat) : List Nat := (s.liveCores sp).filter (fun c => !(s.poolOf sp).contains c)
def gridOf (s : State) (f : LaunchCmd) : Option (List Nat) :=
  let n := f.gx * f.gy
  let l := (((rangeFrom (f.base / 64) 128).flatMap (eligible s)).filter (fun c => f.base ≤ c)).take n
  if l.length == n then some l else none

def launchCmd : Instr → Option LaunchCmd
  | .launch _ f => some f
  | .launchResume _ f => some f
  | _ => none

/-- Cores that a launch holds, and those of a LAUNCH that has started and not dispatched (R24, R329). -/
def heldCores (s : State) : List Nat :=
  s.launches.flatMap (·.2.active) ++
    (s.cores.filter (fun x => x.2.mode != .free)).map (·.1) ++
    s.queues.flatMap (fun x => x.2.running.flatMap (fun r =>
      if r.done.isSome || r.begun then [] else ((launchCmd r.instr).bind (gridOf s)).getD []))

/-! ## Completion records (R326, R327, R400) -/

/-- TIME of region 0 (R348). -/
def time0 (s : State) : Nat := s.now - s.timeBase

def recordBytes (s : State) (q : Nat) (r : RunCmd) (d : Nat × W64) : List Byte :=
  toBytes r.hdr.utag.toNat 4 ++ toBytes q 1 ++ toBytes r.hdr.op.toNat 1 ++ toBytes d.1 1 ++ toBytes 0 1 ++ toBytes d.2.toNat 8 ++
    toBytes (time0 s) 8 ++ toBytes r.hdr.slot 8

/-- The interrupt message of a command queue (R400). -/
def irqWord (q : Nat) (k : CmdQueue) : W64 := BitVec.ofNat 64 (k.thread.toNat + q % 64 * 2 ^ 33)

/-- COALESCING_WINDOW_END (R327): one interrupt covers every record of the window. -/
def windowEnd (q : Nat) (s : State) : State :=
  let k := s.queue q
  match k.window with
  | some t => if t ≤ s.now then postIrq (s.setQueue q { k with window := none }) k.port (irqWord q k) else s
  | none => s
def execCoalescingWindowEnd (q : Nat) (s : State) : Out := .next (windowEnd q s)

/-- The first record after a queue's last interrupt opens its window; with W = 0 the interrupt follows at once (R327). A record in the
cycle in which a window ends is not of that window. -/
def coverRecord (q : Nat) (s : State) : State :=
  let s := windowEnd q s
  let k := s.queue q
  if s.fw.window == 0 then postIrq s k.port (irqWord q k)
  else if k.window.isSome then s
  else s.setQueue q { k with window := some (s.now + 800 * s.fw.window) }

/-- Writes record k of the queue, over whatever its slot holds; the record may wait at its home. -/
def writeRecord (q : Nat) (r : RunCmd) (d : Nat × W64) (s : State) : FirmPut :=
  let k := s.queue q
  match homeWrite s whoFirm (.command q r.hdr.slot) (k.cring + 32 * (k.records % k.ncslots)) (recordBytes s q r d) false with
  | .ok s' => .ok (coverRecord q (s'.modQueue q (fun k => { k with records := k.records + 1 })))
  | .wait s' => .wait s'
  | .err s' => .bad s'

/-- A completed command asks for a record, has failed, or is a COMPLETE. -/
def wantsRecord (r : RunCmd) (d : Nat × W64) : Bool := r.hdr.wantRec || r.hdr.op == 12 || d.1 != 0

/-- COMPLETION_RECORD (R326): a completed command leaves, with its record where it asks for one, fails, or is a COMPLETE; it stays while
its record waits. The leader then reads its header again (R315). -/
def completionRecord (q sl : Nat) (s : State) : State :=
  match (s.queue q).running.find? (fun r => r.hdr.slot == sl && r.done.isSome) with
  | none => s
  | some r =>
    let d := r.done.getD (0, 0)
    let leave := fun s' : State =>
      let s' := s'.modQueue q (fun k => { k with running := k.running.filter (fun x => x != r) })
      if (s'.queue q).served then readHeader true q s' else s'
    match if wantsRecord r d then writeRecord q r d s else .ok s with
    | .wait s' => s'
    | .ok s' => leave s'
    | .bad s' => leave s'
def execCompletionRecord (q sl : Nat) (s : State) : Out := .next (completionRecord q sl s)

/-- INTERRUPT_MESSAGE (R400): the oldest message leaves on its port, behind the records it covers. -/
def interruptMessage (s : State) : State := { s with irqs := s.irqs.drop 1 }
def execInterruptMessage (s : State) : Out := .next (interruptMessage s)

end Sys2Proof.Machine
end

