-- ==== Sys2Proof/Machine/Commands.lean ====
section
/-! DEFINITION. The commands TOP, COPY, WAITEV, SIGNAL, SETMODE, FENCE and COMPLETE (R319 to R321, R324, R325). -/

namespace Sys2Proof.Machine

/-- A command ends with a status that the spec does not give. -/
def completeOpen (h : CmdHdr) (s : State) : State :=
  let d := s.draw
  complete h (d.1.toNat % 256) 0 d.2

/-! ## TOP (R319) -/

/-- What reading the descriptors of a TOP meets. -/
inductive DescGot where
  | ok (ds : List V512)
  | wait
  | bad (va : Nat)

def readDescs (s : State) : List Nat → DescGot
  | [] => .ok []
  | va :: l =>
    match firmRead s va 64 with
    | .wait => .wait
    | .bad _ => .bad va
    | .ok bs =>
      match readDescs s l with
      | .ok ds => .ok (BitVec.ofNat 512 (ofBytes bs) :: ds)
      | r => r

/-- A descriptor that breaks a check of R259 or R405 in itself. -/
def ownBad (op pos : Nat) (d : Option Desc) : Bool :=
  match d with
  | none => true
  | some d =>
    (if isCollective op then d.slg || d.scaled || (pos == 0 && 2 ^ 20 < d.esz * d.e 0 * d.rows) else !ownOk op pos d) ||
      (pos == 2 && !apart d) || (if d.slg then d.grammar % 64 != 0 else d.base % d.esz != 0)

/-- The destination breaks a check together with its sources. -/
def destBad (s : State) (f : TopCmd) (dd a b : Desc) : Bool :=
  if isCollective f.opc then
    !collectiveShape f.opc (((switchOf s (f.aux.toNat / 4 % 16)).map (·.1)).getD 0) dd a ||
      (!(f.opc == 0x22 && dd.alias_ a) && sharesBytes dd.runs a.runs)
  else !destOk f.opc f.aux dd a b || (sourcesOf f.opc a b).any (fun s => !(mayAlias f.opc && dd.alias_ s) && sharesBytes dd.runs s.runs)

/-- The offset that refuses a TOP, none where its T-op is accepted: 9 where aux breaks R258, a collective's port included, else
the first of its descriptors that breaks a check (R259, R319, R405). -/
def topRefusal (s : State) (f : TopCmd) (ds : List (Option Desc)) : Option Nat :=
  let dd := ds.getD 0 none
  let a := ds.getD 1 none
  let b := ds.getD (if topTwo f.opc then 2 else 1) none
  let both := fun p : Desc → Desc → Desc → Bool => match dd, a, b with | some dd, some a, some b => p dd a b | _, _, _ => false
  if isCollective f.opc && (switchOf s (f.aux.toNat / 4 % 16)).isNone then some 9
  else if f.opc == opTRED && a.any (fun a => a.rank ≤ redAxis f.aux) then some 9
  else if ownBad f.opc 2 dd || both (destBad s f) then some 16
  else if ownBad f.opc 0 a || both (fun _ a b => !isCollective f.opc && !pairOk f.opc a b) then some 24
  else if topTwo f.opc && ownBad f.opc 1 b then some 32
  else none

/-- Whether a queue has a deterministic LAUNCH running (R319). -/
def detQueue (s : State) (q : Nat) : Bool :=
  (s.queue q).running.any (fun r => r.done.isNone && (launchCmd r.instr).any (·.det))

/-- The T-op of a TOP command, placed for the leader's spire; its c is the cycle of the command's start. -/
def issueTop (h : CmdHdr) (f : TopCmd) (ds : List (Option Desc)) (s : State) : State :=
  let at_ := fun i => (ds.getD i none).getD Desc.none
  let n := s.freshId
  let r := s.runOf h.q h.slot
  let t := Top.fresh f.opc f.aux (.command h.q h.slot) (BitVec.ofNat 16 s.fw.fwTag) ((r.map (·.lead)).getD 0) ((r.map (·.start)).getD s.now)
    (detQueue s h.q) 0 (at_ 0) (at_ 1) (at_ (if topTwo f.opc then 2 else 1)) none
  let n := (n.1, (withRoot t n.2).2)
  let s := { putTop n.2 n.1 (atIssue s [] [] (withRoot t s).1) with fw := { s.fw with fwTag := (s.fw.fwTag + 1) % 2 ^ 16 } }
  s.modRun h.q h.slot (fun r => { r with begun := true })

/-- The descriptor addresses of a TOP. -/
def topDescs (f : TopCmd) : List Nat := [f.dd, f.ds1] ++ (if topTwo f.opc then [f.ds2] else [])

/-- TOP (R319): its descriptors are read and checked, and its T-op is issued; TOP_REPORT completes it. -/
def topCommand (h : CmdHdr) (f : TopCmd) (s : State) : State :=
  whenRunning h s (fun r =>
    if r.begun then s
    else
      match readDescs s (topDescs f) with
      | .wait => s
      | .bad va => complete h 5 (BitVec.ofNat 64 va) (readNoted s va 64)
      | .ok vs =>
        let ds := vs.map descOf
        match topRefusal s f ds with
        | some o => complete h 1 (BitVec.ofNat 64 o) s
        | none => issueTop h f ds s)
def execTop (h : CmdHdr) (f : TopCmd) (s : State) : Out := .next (topCommand h f s)

/-! ## COPY (R320) -/

/-- Physical granules of a range, one per 64 KiB. -/
def granuleList (va : Nat) (ps : List (Nat × Nat)) : List (Nat × Nat) :=
  (va / 65536, (ps.headD (0, 0)).1 - va % 65536) ::
    (ps.drop 1).mapIdx (fun i p => (va / 65536 + 1 + i, p.1))

/-- The chunk of a COPY from byte `done` on: source and destination pieces. -/
def copyPieces (pages : List (Nat × Nat)) (va n : Nat) : List (Nat × Nat) := physPieces pages va n

/-- Source pages stand at their granules; destination pages at theirs, 2^40 higher. -/
def dstShift : Nat := 2 ^ 40
def srcPages (l : List (Nat × Nat)) : List (Nat × Nat) := l.filter (fun p => p.1 < dstShift)
def dstPages (l : List (Nat × Nat)) : List (Nat × Nat) :=
  (l.filter (fun p => dstShift ≤ p.1)).map (fun p => (p.1 - dstShift, p.2))

/-- The offset that refuses a COPY for an unmapped page or a missing permission. -/
def copyRefusal (s : State) (f : CopyCmd) : Option Nat :=
  match vaPieces s true false 65536 f.src f.len, vaPieces s false true 65536 f.dst f.len with
  | .bad _, _ => some 8
  | _, .bad _ => some 16
  | _, _ => none

/-- A COPY starts: both ranges are translated; an unmapped page or a missing permission refuses it. -/
def copyBegin (h : CmdHdr) (f : CopyCmd) (s : State) : State :=
  match copyRefusal s f with
  | some o => complete h 1 (BitVec.ofNat 64 o) s
  | none =>
    match vaPieces s true false 65536 f.src f.len, vaPieces s false true 65536 f.dst f.len with
    | .ok a, .ok b =>
      s.modRun h.q h.slot (fun r =>
        { r with begun := true,
                 pages := granuleList f.src a ++ (granuleList f.dst b).map (fun p => (p.1 + dstShift, p.2)) })
    | _, _ => s

def copyErr (h : CmdHdr) (st : Nat) (s : State) : State := complete h 13 (BitVec.ofNat 64 (st * 2 ^ 32)) s

/-- The status that a chunk's reads end in, 0 where they may be made (R246). -/
def copyStatus (s : State) (ps : List (Nat × Nat)) : Nat :=
  if ps.any (fun x => !homeKnown s x.1 x.2 || s.donatedAt x.1 || (paClass x.1 == 0 && s.poisoned x.1)) then 2
  else if ps.any (fun x => s.badUnder x.1 x.2) then 3
  else 0

/-- One chunk of up to 16 KiB (R243), which ends with a block of its destination, so that each block is written once (R211). It
runs under the spire that started the command (R328). -/
def copyStep (h : CmdHdr) (f : CopyCmd) (r : RunCmd) (s : State) : State :=
  let n := min (16384 - (f.dst + r.prog) % 256) (f.len - r.prog)
  let src := copyPieces (srcPages r.pages) (f.src + r.prog) n
  let who : Who := { kind := 2, idx := r.lead, spire := some r.lead, own := some (.command h.q h.slot) }
  if src.any (fun x => s.mustWait who x.1 x.2) then s
  else if copyStatus s src != 0 then
    copyErr h (copyStatus s src) (noteBads s ((src.filter (fun x => s.badRead x.1 x.2)).map (·.1)))
  else
    let bs := src.flatMap (fun x => s.mem.read x.1 x.2)
    let out := dealBytes (copyPieces (dstPages r.pages) (f.dst + r.prog) n) bs
    match writePieces s who (.command h.q h.slot) (tilePieces out) s with
    | .wait s' => s'
    | .err s' => copyErr h 2 s'
    | .ok s' =>
      let blks := ((src.filter (fun x => paClass x.1 == 0)).map (fun x => x.1 / 256 * 256)).eraseDups
      let s' := blks.foldl (fun s b => touched s b 256 who) s'
      if f.len ≤ r.prog + n then complete h 0 0 s' else s'.modRun h.q h.slot (fun r => { r with prog := r.prog + n })

/-- COPY (R320): its ranges are checked and translated, then chunks move in copy order, one in each further step. -/
def copyCommand (h : CmdHdr) (f : CopyCmd) (s : State) : State :=
  whenRunning h s (fun r => if r.begun then copyStep h f r s else copyBegin h f s)
def execCopy (h : CmdHdr) (f : CopyCmd) (s : State) : Out := .next (copyCommand h f s)

/-! ## Event counters (R321) -/

/-- The physical address of a counter, where it can be translated with the permission the command needs. -/
def counterAt (s : State) (wr : Bool) (va : Nat) : VaRes := vaNear s true wr 64 va 8

def counterRefusal (s : State) (wr : Bool) (va : Nat) : Option Nat :=
  match counterAt s wr va with
  | .wait => none
  | .ok [(_, 8)] => none
  | _ => some 8

/-- A WAITEV's watch at the counter's home. -/
def eventWatch (h : CmdHdr) (pa : Nat) (v : W64) (id : Nat) : Access :=
  { id := id, src := .command h.q h.slot, slot := .sc, kind := .waitv 5 true, pa := pa, size := 8, data := v.setWidth 512,
    cmp := 0, land := .none, at_ := 0, ser := 0, release := false, acquire := false, scope := 4, path := 0, bound := 0, lat := 0,
    late := 0, stamp := 0, retry := false }

/-- WAITEV (R321): its counter is read at its home like any other bytes (R198, R202). It completes at once where the counter already
holds the value, else with the first write that leaves it at or above the value. -/
def waitevCommand (h : CmdHdr) (f : WaitevCmd) (s : State) : State :=
  whenRunning h s (fun r =>
    if r.begun then s
    else
      match counterAt s false f.counter with
      | .wait => s
      | .ok [(pa, 8)] =>
        let n := s.freshId
        let x := eventWatch h pa f.value n.1
        let watch := fun s' : State =>
          let s'' : State := { s' with nextId := n.2.nextId }
          (s''.setWatches pa (s'.watchesAt pa ++ [{ acc := x }])).modRun h.q h.slot (fun r => { r with begun := true })
        (match homeLook s whoFirm pa 8 with
         | .wait => s
         | .err s' => watch s'
         | .ok _ po s' => if !po && waitMet s'.mem x then complete h 0 0 (sampleAccess s' pa none) else watch s')
      | _ => complete h 1 8 s)
def execWaitev (h : CmdHdr) (f : WaitevCmd) (s : State) : Out := .next (waitevCommand h f s)

/-- The add or store at the counter's home; an error response leaves the command's status open. -/
def signalWrite (h : CmdHdr) (f : SignalCmd) (pa : Nat) (s : State) : State :=
  match homeRead s { whoFirm with kind := 5, own := some (.command h.q h.slot) } pa 8 with
  | .wait => s
  | .err s' => completeOpen h s'
  | .ok bs po s' =>
    if po then completeOpen h s'
    else
      let v := if f.store then f.value else BitVec.ofNat 64 (ofBytes bs) + f.value
      match homeWrite s { whoFirm with kind := 5 } (.command h.q h.slot) pa (toBytes v.toNat 8) false with
      | .ok s'' => complete h 0 0 s''
      | .wait s'' => s''
      | .err s'' => completeOpen h s''

/-- SIGNAL (R321): its counter is checked at its start; the write follows once every earlier command has completed. -/
def signalCommand (h : CmdHdr) (f : SignalCmd) (s : State) : State :=
  whenRunning h s (fun r =>
    if r.begun then
      (if earlierOpen s h.q h.slot then s else signalWrite h f (lookD r.pages 0 0) s)
    else
      match counterAt s true f.counter with
      | .wait => s
      | .ok [(pa, 8)] =>
        let s := s.modRun h.q h.slot (fun r => { r with begun := true, pages := [(0, pa)] })
        if earlierOpen s h.q h.slot then s else signalWrite h f pa s
      | _ => complete h 1 8 s)
def execSignal (h : CmdHdr) (f : SignalCmd) (s : State) : Out := .next (signalCommand h f s)

/-! ## SETMODE (R324, R373) -/

def modeSpires (f : SetmodeCmd) : List Nat := if f.spire == 255 then List.range 128 else [f.spire]

/-- SETMODE item 0: each spire's pool changes once no core of it belongs to a running launch; `prog` is the set of spires
that have changed. -/
def risePool (h : CmdHdr) (f : SetmodeCmd) (s : State) : State :=
  whenRunning h s (fun r =>
    let held := heldCores s
    let now := (modeSpires f).filter (fun sp => !r.prog.testBit sp && !held.any (fun c => c / 64 == sp))
    let prog := now.foldl (fun p sp => p ||| 2 ^ sp) r.prog
    let s := { s with fw := { s.fw with pools := now.foldl (fun l sp => put l sp f.value) s.fw.pools } }
    let s := s.modRun h.q h.slot (fun r => { r with prog := prog })
    if (modeSpires f).all (fun sp => prog.testBit sp) then complete h 0 0 s else s)
def execSetmodeRisePool (h : CmdHdr) (f : SetmodeCmd) (s : State) : Out := .next (risePool h f s)

/-- SETMODE item 1: the coalescing window of every queue, in microseconds. -/
def coalesce (h : CmdHdr) (f : SetmodeCmd) (s : State) : State :=
  whenRunning h s (fun _ => complete h 0 0 { s with fw := { s.fw with window := f.value } })
def execSetmodeCoalesce (h : CmdHdr) (f : SetmodeCmd) (s : State) : Out := .next (coalesce h f s)

/-- SETMODE item 2: the panel power limit, which a core takes at its next dispatch. -/
def powerLimit (h : CmdHdr) (f : SetmodeCmd) (s : State) : State :=
  whenRunning h s (fun _ => complete h 0 0 { s with fw := { s.fw with power := f.value } })
def execSetmodePowerLimit (h : CmdHdr) (f : SetmodeCmd) (s : State) : Out := .next (powerLimit h f s)

/-- PWRLIM at a panel power limit of w watts (R373). -/
def pwrLimAt (w : Nat) : Nat := min 7872 (max 3936 ((w - 7000) * 7872 / 27000))

/-! ## FENCE and COMPLETE (R325) -/

/-- Completes once every earlier command of the queue has. -/
def fenceDone (h : CmdHdr) (s : State) : State :=
  whenRunning h s (fun _ => if earlierOpen s h.q h.slot then s else complete h 0 0 s)
/-- FENCE. -/
def execFenceCommand (h : CmdHdr) (s : State) : Out := .next (fenceDone h s)
/-- COMPLETE: its record is always written. -/
def execComplete (h : CmdHdr) (s : State) : Out := .next (fenceDone h s)

end Sys2Proof.Machine
end

