-- ==== Sys2Proof/Machine/Pages.lean ====
section
/-! DEFINITION. MAP, UNMAP, MIGRATE and BALLOON (R202, R203, R322, R323, R332, R333, R339 to R342). -/

namespace Sys2Proof.Machine

/-! ## Writing the page table (R332, R333) -/

def putPte (s : State) (key : Nat) (w : W64) : State :=
  { s with ptes := if w == 0 then drop s.ptes key else put s.ptes key w }

/-- A leaf as it stands in the table. -/
def leafWord (l : Leaf) : W64 :=
  BitVec.ofNat 64 (3 + (if l.read then 4 else 0) + (if l.write then 8 else 0) + (if l.moving then 16 else 0) + l.pa)

/-- The table below an entry; a new one where the entry points at none. Tables stand apart from memory, each in 16 KiB. -/
def childTable (s : State) (table lvl va : Nat) : Nat × State :=
  let e := s.pte table lvl va
  if pteValid e && !pteLeaf e then (pteAddr e, s)
  else
    let n := s.fw.nextTable
    (n, putPte { s with fw := { s.fw with nextTable := n + 16384 } } (table + 8 * pteIdx lvl va) (BitVec.ofNat 64 (n + 1)))

/-- Writes the leaf of a virtual page. -/
def writeLeaf (s : State) (va : Nat) (l : Leaf) : State :=
  let t1 := childTable s 0 0 va
  let t2 := childTable t1.2 t1.1 1 va
  if l.large then putPte t2.2 (t2.1 + 8 * pteIdx 2 va) (leafWord l)
  else
    let t3 := childTable t2.2 t2.1 2 va
    putPte t3.2 (t3.1 + 8 * pteIdx 3 va) (leafWord l)

/-- Clears the leaf of a virtual page, of the size it is mapped at. -/
def clearLeaf (s : State) (va : Nat) : State :=
  let e1 := s.pte (pteAddr (s.pte 0 0 va)) 1 va
  let k2 := pteAddr e1 + 8 * pteIdx 2 va
  let e2 := s.pte (pteAddr e1) 2 va
  if pteLeaf e2 then putPte s k2 0 else putPte s (pteAddr e2 + 8 * pteIdx 3 va) 0

/-! ## What stands mapped -/

/-- The mapped pages that a virtual page of a size meets: their virtual pages and leaves. -/
def oldLeaves (s : State) (va : Nat) (large : Bool) : List (Nat × Leaf) :=
  match s.walk va with
  | some l => if l.large || !large then [(va / pageSize l.large * pageSize l.large, l)] else smalls
  | none => if large then smalls else []
where
  smalls : List (Nat × Leaf) :=
    (List.range 512).filterMap (fun i => (s.walk (va + i * 65536)).map (fun l => (va + i * 65536, l)))

/-- The page mapped at exactly a virtual page of a size. -/
def leafAt (s : State) (va : Nat) (large : Bool) : Option Leaf :=
  (s.walk va).bind (fun l => if l.large == large then some l else none)

/-- Whether a core holds a page: in its first-level TLB, a handle, a handle on its way, or a copy command. -/
def coreHolds (k : Core) (pg : Nat) : Bool :=
  let inH := fun l : List (Nat × Handle) => l.any (fun x => x.2.valid && x.2.pa == pg)
  k.tlb.any (fun e => e.pa == pg) || inH k.handles ||
    k.seq.pend.any (fun w => match w.wr with | .handle _ h => h.valid && h.pa == pg | _ => false) ||
    (k.snap.any (fun x => inH x.handles)) || (k.eng0.queue ++ k.eng1.queue).any (fun r => r.pages.contains pg && !r.recalled)

/-- Clusters that hold a page: by lease, by a second-level entry, or in a core (R339, R340). Peers stand from 1024 on; they may
hold leases of small pages in a large one, and of large pages over a small one. -/
def holdersOf (s : State) (pg : Nat) (large : Bool) : List Nat :=
  let byLease : List Nat :=
    if paClass pg == 0 then ((s.dome (domeOf pg)).leases.filter (fun l => inPage pg large l.page || inPage l.page l.large pg)).map
      (fun l => l.cluster)
    else (s.peerLeases.filter (fun l => l.page == pg)).map (fun l => l.cluster)
  let byTlb : List Nat := (s.clusters.filter (fun x => x.2.tlb.any (fun e => e.pa == pg))).map (fun x => x.1)
  let byCore : List Nat := ((s.cores ++ s.contexts.flatMap (·.2.cores)).filter (fun x => coreHolds x.2 pg)).map (fun x => x.1 / 8)
  (byLease ++ byTlb ++ byCore).eraseDups

/-- Sends a recall of a page, or joins its holders to one under way. -/
def sendRecall (s : State) (l : Leaf) : State :=
  let hs := holdersOf s l.pa l.large
  if s.recalls.any (fun r => r.page == l.pa) then
    { s with recalls := s.recalls.map (fun r =>
        if r.page == l.pa then { r with holders := (r.holders ++ hs).eraseDups } else r) }
  else { s with recalls := s.recalls ++ [{ page := l.pa, large := l.large, holders := hs }] }

/-- No recall of these pages is under way, and no T-op holds one (R281, R340). -/
def recallsOver (s : State) (ls : List Leaf) : Bool :=
  ls.all (fun l => !recallOver s l.pa && !topHolds s l.pa l.large)

/-- The access counters of a page clear; a record that waits for room on its account is withdrawn (R342). -/
def clearCounts (s : State) (l : Leaf) : State :=
  if paClass l.pa != 0 then s
  else
    let d := domeOf l.pa
    let lo := l.pa % 2 ^ 37 / 65536
    let hit := fun g => lo ≤ g && g < lo + pageSize l.large / 65536
    let gone := ((s.dome d).counts.filter (fun c => hit c.1 && c.2.pending)).map (fun c => d * 2 ^ 37 + c.1 * 65536)
    { s.modDome d (fun k => { k with counts := k.counts.filter (fun c => !hit c.1) }) with
      notes := s.notes.filter (fun n => !(n.code == 0x20 && gone.contains n.w0.toNat)) }

/-! ## MAP, UNMAP, MIGRATE, one page at a time -/

def pageVa (f : PagesCmd) (i : Nat) : Nat := f.va + i * pageSize f.large

/-- The next page is finished. -/
def pageDone (h : CmdHdr) (f : PagesCmd) (i : Nat) (s : State) : State :=
  if i + 1 < f.count then s.modRun h.q h.slot (fun r => { r with prog := i + 1, sentRec := false }) else complete h 0 0 s

/-- The pages among these that a cluster has taken anew since its recall was over. -/
def heldAgain (s : State) (ls : List Leaf) : List Leaf := ls.filter (fun l => !(holdersOf s l.pa l.large).isEmpty)

/-- Recalls that have been sent are waited for, and a page taken meanwhile is recalled again; `fin` goes on once nothing holds one. -/
def recalled (ls : List Leaf) (s : State) (fin : State → State) : State :=
  if !recallsOver s ls then s
  else if (heldAgain s ls).isEmpty then fin s
  else (heldAgain s ls).foldl sendRecall s

/-- Recalls of the pages are sent, then waited for; `fin` goes on once they are over. -/
def afterRecall (h : CmdHdr) (r : RunCmd) (ls : List Leaf) (s : State) (fin : State → State) : State :=
  if ls.isEmpty then fin s
  else if !r.sentRec then ls.foldl sendRecall (s.modRun h.q h.slot (fun r => { r with sentRec := true }))
  else recalled ls s fin

/-- A physical page that MAP may map: as R333, and on a slot that holds a peer panel (R402). -/
def mapOk (s : State) (pa : Nat) (large : Bool) : Bool :=
  s.pageOk pa large && (paClass pa != 14 || look s.fw.ports (peerSlot pa) == some PortKind.peer)

/-- The offset that refuses a MAP: 32 for its first physical page, 16 for a later one (R316). -/
def mapRefusal (s : State) (f : PagesCmd) : Option Nat :=
  if !mapOk s f.target f.large then some 32
  else if (List.range f.count).any (fun i => !mapOk s (f.target + i * pageSize f.large) f.large) then some 16
  else none

/-- MAP (R322): a page already mapped is recalled first, then the new leaf is written. -/
def mapCommand (h : CmdHdr) (f : PagesCmd) (s : State) : State :=
  whenRunning h s (fun r =>
    match if r.begun then none else mapRefusal s f with
    | some o => complete h 1 (BitVec.ofNat 64 o) s
    | none =>
      let i := r.prog
      let va := pageVa f i
      let s := s.modRun h.q h.slot (fun r => { r with begun := true })
      let old := oldLeaves s va f.large
      let l : Leaf := { pa := f.target + i * pageSize f.large, large := f.large, read := f.read, write := f.write, moving := false }
      afterRecall h r (old.map (·.2)) s (fun s =>
        let s := old.foldl (fun s x => clearLeaf (clearCounts s x.2) x.1) s
        pageDone h f i (clearCounts (writeLeaf s va l) l)))
def execMapPages (h : CmdHdr) (f : PagesCmd) (s : State) : Out := .next (mapCommand h f s)

/-- UNMAP (R322): a page mapped at the command's size is recalled, and its leaf cleared. -/
def unmapCommand (h : CmdHdr) (f : PagesCmd) (s : State) : State :=
  whenRunning h s (fun r =>
    let i := r.prog
    let va := pageVa f i
    match leafAt s va f.large with
    | none => pageDone h f i s
    | some l => afterRecall h r [l] s (fun s => pageDone h f i (clearCounts (clearLeaf s va) l)))
def execUnmap (h : CmdHdr) (f : PagesCmd) (s : State) : Out := .next (unmapCommand h f s)

/-- A physical page of a dome that nothing maps and that is not in the balloon. A move writes no poisoned block (R396): a page that
holds one is not chosen. -/
def pageFree (s : State) (pa : Nat) (large : Bool) : Bool :=
  let n := pageSize large
  !s.ptes.any (fun e =>
    let a := pteAddr e.2
    let m := if a % 2 ^ 25 == 0 then 2 ^ 25 else 65536
    pteValid e.2 && pteLeaf e.2 && a < pa + n && pa < a + m) &&
    !(stepsOf pa n 256).any (fun b => s.donatedAt b || s.poisoned b)

/-- The page a MIGRATE moves to: the firmware's choice among the free pages of its dome. -/
def newPage (s : State) (d : Nat) (large : Bool) (choice : W64) : Nat :=
  d * 2 ^ 37 + choice.toNat % max 1 (s.capOf d / pageSize large) * pageSize large

/-- Poisoned blocks stay poisoned where they move to. -/
def movePoison (s : State) (from_ toPa n : Nat) : State :=
  { s with poison := s.poison ++ (s.poison.filter (fun b => from_ ≤ b && b < from_ + n)).map (fun b => b - from_ + toPa) }

/-- The blocks of a page that its dome answers for. -/
def pageBlocks (l : Leaf) : List Nat := if paClass l.pa == 0 then stepsOf l.pa (pageSize l.large) 256 else []

/-- The blocks of a page are read at their homes, where poisoned ones are logged (R198, R208). -/
def readPage (l : Leaf) (s : State) : State := logErrors ((pageBlocks l).foldl (fun s b => touched s b 256 whoFirm) s) (pageBlocks l)

/-- The contents of a page move block by block, and the new leaf is written (R341). A donated block among them is counted, and the
command ends with a status that the spec does not give (R202). -/
def movePage (h : CmdHdr) (f : PagesCmd) (i : Nat) (l : Leaf) (s : State) : State :=
  let d := s.draw
  let s := d.2
  let n := pageSize l.large
  let toPa := newPage s f.target l.large d.1
  if (pageBlocks l).any s.donatedAt then completeOpen h (noteBads s ((pageBlocks l).filter s.donatedAt))
  else if (pageBlocks l).any (fun b => s.mustWait whoFirm b 256) || !pageFree s toPa l.large || toPa % 2 ^ 37 + n > s.capOf f.target then s
  else
    let pieces := cutBlocks toPa (s.mem.read l.pa n)
    match writePieces s whoFirm (.command h.q h.slot) pieces s with
    | .wait s' => s'
    | .err s' => completeOpen h (readPage l s')
    | .ok s' =>
      let new : Leaf := { l with pa := toPa, moving := false }
      pageDone h f i (clearCounts (clearCounts (writeLeaf (movePoison (readPage l s') l.pa toPa n) (pageVa f i) new) l) new)

/-- MIGRATE (R341): the leaf is marked moving, the page recalled, copied, and mapped anew. -/
def migrateCommand (h : CmdHdr) (f : PagesCmd) (s : State) : State :=
  whenRunning h s (fun r =>
    let i := r.prog
    let va := pageVa f i
    match leafAt s va f.large with
    | none => pageDone h f i s
    | some l =>
      if !r.sentRec then
        sendRecall (writeLeaf (s.modRun h.q h.slot (fun r => { r with sentRec := true })) va { l with moving := true }) l
      else recalled [l] s (movePage h f i l))
def execMigrate (h : CmdHdr) (f : PagesCmd) (s : State) : Out := .next (migrateCommand h f s)

/-! ## BALLOON (R202, R203, R323) -/

/-- First logical page of a BALLOON, and its pages. -/
def balloonPages (f : BalloonCmd) : List Nat := (List.range f.count).map (fun i => f.page / 65536 + i)

/-- A page joins the balloon list: each of its 256 block records is marked donated (R202). -/
def donatePage (k : Dome) (g : Nat) : Dome :=
  if k.balloon.contains g || (k.block (g * 256)).ballooned then k
  else
    { k with balloon := k.balloon ++ [g],
             blocks := (List.range 256).foldl (fun l i =>
               put l (g * 256 + i) { k.block (g * 256 + i) with donated := true }) k.blocks }

/-- A donation of pages beyond L is refused: the first page and the count decide it, and the first page stands lower (R316). -/
def donateRefusal (s : State) (f : BalloonCmd) : Option Nat :=
  if s.capOf f.dome ≤ f.page || s.capOf f.dome < f.page + f.count * 65536 then some 16 else none

/-- BALLOON, donate. -/
def donate (h : CmdHdr) (f : BalloonCmd) (s : State) : State :=
  whenRunning h s (fun _ =>
    match donateRefusal s f with
    | some o => complete h 1 (BitVec.ofNat 64 o) s
    | none => complete h 0 0 (s.modDome f.dome (fun k => (balloonPages f).foldl donatePage k)))
def execBalloonDonate (h : CmdHdr) (f : BalloonCmd) (s : State) : Out := .next (donate h f s)

/-- A block that comes back from the balloon: its old units return, and a new home slot is drawn; it reads zero. -/
def returnBlock (b : Nat) (k : Dome) : Dome :=
  let r := k.block b
  let k := returnUnits (r.ovf.reverse ++ [r.home]) { k with sectors := k.sectors - r.s }
  let d := drawUnits 1 k
  { d.2 with blocks := put d.2.blocks b { s := 0, donated := false, ballooned := false, home := d.1.headD 0, ovf := [] } }

def returnPage (k : Dome) (g : Nat) : Dome :=
  let k := (List.range 256).foldl (fun k i => returnBlock (g * 256 + i) k) k
  { k with balloon := k.balloon.filter (· != g) }

/-- Pages are taken from the list in ascending order until the pool cannot cover one with 256 units. -/
def reclaimPages (d : Nat) : List Nat → Nat → State → Nat × State
  | [], n, s => (n, s)
  | g :: l, n, s =>
    if (s.dome d).poolFree < 256 then (n, s)
    else
      let pg := d * 2 ^ 37 + g * 65536
      let s := { s with mem := s.mem.clear pg (pg + 65536), poison := s.poison.filter (fun b => b < pg || pg + 65536 ≤ b) }
      reclaimPages d l (n + 1) (s.modDome d (fun k => returnPage k g))

/-- A reclaim of a page that is not on the list is refused. -/
def reclaimRefusal (s : State) (f : BalloonCmd) : Option Nat :=
  if (balloonPages f).all (fun g => (s.dome f.dome).balloon.contains g) then none else some 16

/-- BALLOON, reclaim (R323). -/
def reclaim (h : CmdHdr) (f : BalloonCmd) (s : State) : State :=
  whenRunning h s (fun _ =>
    match reclaimRefusal s f with
    | some o => complete h 1 (BitVec.ofNat 64 o) s
    | none =>
      let r := reclaimPages f.dome (balloonPages f) 0 s
      let s := poolCheck r.2 f.dome
      if r.1 == f.count then complete h 0 0 s else complete h 11 (BitVec.ofNat 64 r.1) s)
def execBalloonReclaim (h : CmdHdr) (f : BalloonCmd) (s : State) : Out := .next (reclaim h f s)

/-! ## The balloon engine (R203) -/

/-- Returns a page's home slots and overflow units (R203). -/
def takePage (k : Dome) (page : Nat) : Dome :=
  let k' := (List.range 256).foldl (fun k i =>
    let b := page * 256 + i
    let r := k.block b
    let k := returnUnits (r.ovf.reverse ++ [r.home]) { k with sectors := k.sectors - r.s }
    { k with blocks := put k.blocks b { s := 0, donated := false, ballooned := true, home := 0, ovf := [] } }) k
  { k' with balloon := k'.balloon.drop 1, bTakes := k'.bTakes + 1 }

/-- A take of the oldest page of a dome's balloon may be made: every lease on the page has been recalled, and no T-op that has
translated it is still to be reported (R203, R281). -/
def takeable (s : State) (d g : Nat) : Bool :=
  let pg := d * 2 ^ 37 + g * 65536
  !(s.dome d).leases.any (fun l => inPage l.page l.large pg) && !s.recalls.any (fun r => inPage r.page r.large pg) &&
    !topHolds s pg false

/-- BALLOON_TAKE (R203): for a write that the pool cannot serve, the engine recalls the leases on the oldest page, then takes its
slots; each of its blocks is activated by the engine (R208). The writes that wait are served after it, held ones first. -/
def balloonTake (d : Nat) (s : State) : State :=
  let k := s.dome d
  match k.balloon, k.waiting with
  | g :: _, w :: _ =>
    let pg := d * 2 ^ 37 + g * 65536
    let leases := k.leases.filter (fun l => inPage l.page l.large pg)
    if w.need ≤ k.poolFree then s
    else if !leases.isEmpty then recallLeases d leases s
    else if takeable s d g then
      let s := touched s pg 65536 { kind := 6, idx := 0, spire := none }
      let s := { s with mem := s.mem.clear pg (pg + 65536), poison := s.poison.filter (fun b => b < pg || pg + 65536 ≤ b) }
      poolCheck (s.modDome d (fun k => takePage k g)) d
    else s
  | _, _ => s
def execBalloonTake (d : Nat) (s : State) : Host.Outcome State Fault Refusal := .next (balloonTake d s)

/-- A lease on a page whose recall has not been sent. -/
def unrecalled (s : State) (k : Dome) (pg : Nat) : Bool :=
  k.leases.any (fun l => inPage l.page l.large pg && !s.recalls.any (fun r => r.page == l.page))

/-- A step of the recalls of a page that can be made now: a cluster acknowledges, or a recall is over (R340). -/
def recallStep (s : State) (pg : Nat) : Bool :=
  s.recalls.any (fun r => inPage r.page r.large pg &&
    (r.holders.any (fun cl => cl < 1024 && (leaseRecall r.page cl s).recalls != s.recalls) || (recallComplete r.page s).recalls != s.recalls))

/-- A step towards a take that must be made before the clock goes on: the recalls on the oldest page are sent at once; a write that has
waited 4,096 cycles waits no longer for what can be done here (R203). A peer acknowledges in its own time, and an access or a T-op
that holds a recall ends by its own rules. -/
def takeDue (s : State) (x : Nat × Dome) : Bool :=
  match x.2.balloon, x.2.waiting with
  | g :: _, w :: _ =>
    let pg := x.1 * 2 ^ 37 + g * 65536
    x.2.poolFree < w.need &&
      (unrecalled s x.2 pg || (x.2.want.any (fun y => y.since + 4096 ≤ s.now) && (takeable s x.1 g || recallStep s pg)))
  | _, _ => false

end Sys2Proof.Machine
end

