-- ==== Sys2Proof/Machine/Arbiter.lean ====
section
/-! DEFINITION. The choice of the next command: heads, starts, refusals as they stand, and the pass over the levels (R316, R317,
R329). -/

namespace Sys2Proof.Machine

/-- A queue's head, or why there is none. -/
inductive HeadRes where
  | none
  | bad
  | head (r : CmdRead)

def headOf (s : State) (q : Nat) : HeadRes :=
  let k := s.queue q
  if !k.served || k.rdptr == k.wrptr || k.leader.isNone || k.leader != leaderOf s q then .none
  else
    let at_ := k.ring + 128 * (k.rdptr % k.nslots)
    match piecesGot s at_ (vaNear s true false 64 at_ 128) with
    | .ok bs => .head (decodeCommand q k.rdptr bs)
    | .wait => .none
    | .bad _ => .bad

/-- FENCE and COMPLETE wait for every earlier command before they start. -/
def isFence : Instr → Bool
  | .fenceCommand _ => true
  | .complete _ => true
  | _ => false
/-- Nothing starts behind one of these until it has completed. -/
def isBarrier (i : Instr) : Bool := isFence i || (match i with | .waitev .. => true | _ => false)

/-- The start conditions of R317. -/
def startOk (k : CmdQueue) (r : CmdRead) : Bool :=
  let open_ := k.running.filter (fun x => x.done.isNone)
  !open_.any (fun x => isBarrier x.instr) && (!(r.hdr.after || (r.bad.isNone && isFence r.instr)) || open_.isEmpty)

/-- The fields of a command that its start would refuse as well: the lowest decides the detail with those that are wrong as they
stand (R316). A field that is wrong itself is not looked behind. -/
def startBad (s : State) : Instr → Option Nat
  | .copy _ f => if f.len < 1 || 2 ^ 40 < f.len then none else copyRefusal s f
  | .waitev _ f => counterRefusal s false f.counter
  | .signal _ f => counterRefusal s true f.counter
  | .mapPages _ f => if f.count < 1 || 2 ^ 24 < f.count then none else mapRefusal s f
  | .balloonDonate _ f => donateRefusal s f
  | .balloonReclaim _ f => reclaimRefusal s f
  | .top _ f =>
    (match readDescs s (topDescs f) with
     | .ok ds => topRefusal s f (ds.map descOf)
     | _ => none)
  | _ => none

/-- The offset that refuses a command, none where it may start. -/
def badOffset (s : State) (r : CmdRead) : Option Nat :=
  r.bad.map (fun o => match startBad s r.instr with | some k => min o k | none => o)

/-- A command starts: rdptr is committed in memory, then the command stands among the running ones (R317). A write of rdptr
that is refused leaves the queue unserved. -/
def startCommand (s : State) (q : Nat) (r : CmdRead) : State :=
  let k := s.queue q
  let rd := (k.rdptr + 1) % 2 ^ 32
  match firmWrite s q k.rdptr (hdrVa s q + 16) (toBytes rd 4) with
  | .wait s' => s'
  | .bad s' => queueBad s' q (k.leader.getD 0)
  | .ok s' =>
    let run : RunCmd :=
      { hdr := r.hdr, instr := r.instr, done := (badOffset s r).map (fun o => (1, BitVec.ofNat 64 o)), begun := false, prog := 0,
        sentRec := false, pages := [], lead := k.leader.getD 0, start := s.now }
    let s' := s'.modQueue q (fun k =>
      { k with rdptr := rd, headSince := s.now, promoted := 0, running := k.running ++ [run] })
    if r.bad.isSome then s' else { s' with agenda := s'.agenda ++ [.event r.instr] }

def started (s s' : State) (q : Nat) : Bool := (s'.queue q).rdptr != (s.queue q).rdptr

/-- One level of the pass: queues in order from rr, the cores of passed-over launches held. -/
def passLevel (heads : List (Nat × Nat × CmdRead)) (level : Nat) (a : State × List Nat) : State × List Nat :=
  let rr := lookD a.1.fw.rr level 0
  let qs := ((List.range 64).map (fun i => (rr + i) % 64)).filterMap (fun q =>
    (look heads q).bind (fun h => if h.1 == level then some (q, h.2) else none))
  qs.foldl (fun (a : State × List Nat) x =>
    let s := a.1
    let grid := if x.2.bad.isSome then none else (launchCmd x.2.instr).bind (gridOf s)
    let busy := match grid with | some g => g.any (fun c => (heldCores s).contains c || a.2.contains c) | none => false
    if busy then (s, a.2 ++ grid.getD [])
    else
      let s' := startCommand s x.1 x.2
      if started s s' x.1 then ({ s' with fw := { s'.fw with rr := put s'.fw.rr level ((x.1 + 1) % 64) } }, a.2)
      else (s', a.2)) a

/-- A queue whose head cannot be read is left unserved (R314). -/
def reportHead (s : State) (q : Nat) : State :=
  match headOf s q with
  | .bad =>
    let k := s.queue q
    queueBad (readNoted s (k.ring + 128 * (k.rdptr % k.nslots)) 128) q (k.leader.getD 0)
  | _ => s

def headList (s : State) : List (Nat × Nat × CmdRead) :=
  (List.range 64).filterMap (fun q =>
    match headOf s q with
    | .head r => if startOk (s.queue q) r then some (q, (s.queue q).prio - (s.queue q).promoted, r) else none
    | _ => none)

/-- ARBITRATION (R329): posted headers are read, heads promoted, and one pass over the four levels made. -/
def arbitration (s : State) : State :=
  if !isReady s then s
  else
    let qs := s.queues.map (·.1)
    let s := qs.foldl (fun s q => if (s.queue q).posted then readHeader true q s else s) s
    let s := qs.foldl (fun s q => promote q s) s
    let s := qs.foldl reportHead s
    let heads := headList s
    ((List.range 4).foldl (fun a l => passLevel heads l a) (s, [])).1
def execArbitration (s : State) : Out := .next (arbitration s)

end Sys2Proof.Machine
end

