-- ==== Sys2Proof/Machine/Image.lean ====
section
/-! DEFINITION. Kernel images as the dispatch reads and checks them (R76, R91 to R96, R165, R185, R302). -/

namespace Sys2Proof.Machine

/-- A section of an object (R92). -/
structure Sect where
  ty : Nat
  off : Nat
  size : Nat
  count : Nat
  deriving DecidableEq, Repr

def sectsOf (bs : List Byte) : List Sect :=
  (List.range (bytesAt bs 6 2)).map (fun i =>
    let o := bytesAt bs 24 4 + 16 * i
    { ty := bytesAt bs o 2 + bytesAt bs (o + 2) 2 * 2 ^ 16, off := bytesAt bs (o + 4) 4, size := bytesAt bs (o + 8) 4,
      count := bytesAt bs (o + 12) 4 })

/-- Bytes of the object that its header and sections reach. -/
def objectSize (hdr : List Byte) : Nat := bytesAt hdr 24 4 + 16 * bytesAt hdr 6 2
def fullSize (bs : List Byte) : Nat := (sectsOf bs).foldl (fun m x => max m (x.off + x.size)) (max 64 (objectSize bs))

/-- R91. The spec ties neither flag bit 1 to LANT nor flag bit 2 to SIGN in a kernel image: neither is held against the
section (log entry 77). -/
def headerOk (bs : List Byte) : Bool :=
  bytesAt bs 0 4 == 0x014F4449 && bytesAt bs 4 2 == 1 && 1 ≤ bytesAt bs 6 2 && bytesAt bs 6 2 ≤ 15 &&
    bytesAt bs 16 4 / 8 == 0 && bytesAt bs 20 4 < 2 ^ 24 && bytesAt bs 24 4 % 8 == 0 && bytesAt bs 32 32 == 0

/-- The carve-out that a dispatch takes (R185). -/
def spillOk (bs : List Byte) : Bool := bytesAt bs 28 4 % 64 == 0 && bytesAt bs 28 4 ≤ 262144

/-- Types rise from 1 to 15. -/
def typesRise : Nat → List Sect → Option Nat
  | _, [] => none
  | lo, x :: l => if x.ty < lo || 15 < x.ty then some (x.ty % 2 ^ 16) else typesRise (x.ty + 1) l

def secBytes (bs : List Byte) (x : Sect) : List Byte := (bs.drop x.off).take x.size
def sectBy (ss : List Sect) (t : Nat) : Option Sect := ss.find? (fun x => x.ty == t)
def countOf (ss : List Sect) (t : Nat) : Nat := ((sectBy ss t).map (·.count)).getD 0
def bytesOfSect (bs : List Byte) (ss : List Sect) (t : Nat) : List Byte := ((sectBy ss t).map (secBytes bs)).getD []

def wordsOf (n bytes : Nat) (bs : List Byte) : List Nat := (piecesOf bytes n bs).map ofBytes
def codeWordsOf (n : Nat) (bs : List Byte) : List (BitVec 16) := (wordsOf n 2 bs).map (BitVec.ofNat 16)
def dictOf (n : Nat) (bs : List Byte) : List (BitVec 384) := (wordsOf n 48 bs).map (BitVec.ofNat 384)

/-- The routines of a ROUT section. -/
def parseRout : Nat → List Byte → Option (List (Nat × List (BitVec 32)))
  | 0, bs => if bs.isEmpty then some [] else none
  | n + 1, bs =>
    let len := bytesAt bs 4 4
    if bs.length < 8 + 4 * len || bytesAt bs 1 3 != 0 then none
    else
      (parseRout n (bs.drop (8 + 4 * len))).map (fun l =>
        (bytesAt bs 0 1, (wordsOf len 4 (bs.drop 8)).map (BitVec.ofNat 32)) :: l)

/-- The user routines that a dispatch takes (R165). -/
def routOk (l : List (Nat × List (BitVec 32))) : Bool :=
  l.all (fun r => 64 ≤ r.1 && r.1 < 256 && routineOk r.2) && decide (l.map (·.1)).Nodup &&
    (l.map (fun r => r.2.length)).foldl (· + ·) 0 ≤ 640

/-- The programs of a LANT section: thread, code, dictionary. The padding of a code stream is read as bytes after it up to a multiple of
8 of the stream's own length, whatever the offset of the dictionary then is, and the spec gives them no value: any is taken (DESIGN
CHOICE). -/
def parseLant : Nat → List Byte → Option (List (Nat × List (BitVec 16) × List (BitVec 384)))
  | 0, bs => if bs.isEmpty then some [] else none
  | n + 1, bs =>
    let w := bytesAt bs 4 4
    let e := bytesAt bs 8 4
    let pad := (2 * w + 7) / 8 * 8
    if bs.length < 12 + pad + 48 * e || bytesAt bs 1 3 != 0 then none
    else
      (parseLant n (bs.drop (12 + pad + 48 * e))).map (fun l =>
        (bytesAt bs 0 1, codeWordsOf w (bs.drop 12), dictOf e (bs.drop (12 + pad))) :: l)

def lantOk (l : List (Nat × List (BitVec 16) × List (BitVec 384))) : Bool :=
  l.all (fun r => r.1 ≤ 1 && r.2.2.length ≤ 256) && decide (l.map (·.1)).Nodup

/-- The lantern programs that a dispatch takes (R302). -/
def lantFits (l : List (Nat × List (BitVec 16) × List (BitVec 384))) : Bool := l.all (fun r => r.2.1.length ≤ 16384)

/-- The positions of the escape words of a code stream, walked from position 0 as bundles follow one another (R77, R78):
`skip` counts the words that belong to a literal under way. -/
def escapes : Nat → Nat → List (BitVec 16) → List Nat
  | _, _, [] => []
  | 0, p, w :: l => if w == 0xFFFF then p :: escapes 24 (p + 1) l else escapes 0 (p + 1) l
  | skip + 1, p, _ :: l => escapes skip (p + 1) l

/-- NEST: unused and indirect extents are 0, the mask names dimensions. -/
def nestOk (bs : List Byte) : Bool :=
  let D := bytesAt bs 0 1
  let m := bytesAt bs 7 1
  1 ≤ D && D ≤ 6 && m / 2 ^ D == 0 &&
    (List.range 6).all (fun j => (j < D && !m.testBit j) || bytesAt bs (8 + 4 * j) 4 == 0)

/-- Whether the bundle at a relocation's offset holds an SL slot: its mask bit is set and the slot decodes so (R55, R93). -/
def slAt (code : List (BitVec 16)) (dict : List (BitVec 384)) (lits : List Nat) (sec off : Nat) : Bool :=
  let isSl := fun n : Nat => (unHdr (n / 2 ^ 352)).mask.getLsbD (posBit .sc) &&
    (match decodeSlot .core .sc (slotOf n .sc) with
     | .ok (.movi ..) => true
     | .ok (.moviz ..) => true
     | .ok (.movih ..) => true
     | _ => false)
  if sec == 2 then off % 48 == 0 && (match dict[off / 48]? with | some b => isSl b.toNat | none => false)
  else
    sec == 1 && off % 2 == 0 && lits.contains (off / 2) &&
      (match fetchAt code dict (off / 2) with | some (n, _, none) => isSl n | _ => false)

/-- Where an ABS64 relocation may write: anywhere in DATA and DESC, at an address of NEST, at the base of a PAGE record
(R92, R93). -/
def abs64At (sec off : Nat) : Bool :=
  if sec == 10 || sec == 6 then true
  else if sec == 8 then 32 ≤ off && off % 8 == 0
  else sec == 9 && off % 24 == 0

/-- One relocation (R93, R96). -/
def reloOk (bs : List Byte) (ss : List Sect) (code : List (BitVec 16)) (dict : List (BitVec 384)) (lits : List Nat)
    (r : List Byte) : Bool :=
  let sec := bytesAt r 0 2
  let ty := bytesAt r 2 2
  let off := bytesAt r 4 4
  bytesAt r 12 4 == 0 && bytesAt r 8 4 < countOf ss 12 &&
    (if ty == 1 then abs64At sec off && off + 8 ≤ (bytesOfSect bs ss sec).length
     else (ty == 2 || ty == 3) && slAt code dict lits sec off)

/-- The literal positions that LITS must list, and those that it lists (R92). -/
def litsOf (bs : List Byte) (ss : List Sect) : List Nat := wordsOf (countOf ss 3) 4 (bytesOfSect bs ss 3)
def escapesOf (bs : List Byte) (ss : List Sect) : List Nat := escapes 0 0 (codeWordsOf (countOf ss 1) (bytesOfSect bs ss 1))

/-- One section's records (R91 to R95), with what only a dispatch refuses (R165, R302) where `disp` says so. The flag bits of PAGE
and SYMB that R92 and R94 do not name must be zero, and a SIGN of a kernel image, which R96 ignores, must still have the size and
count of R92 (log entry 77). -/
def sectOk (disp : Bool) (bs : List Byte) (ss : List Sect) (x : Sect) : Bool :=
  let b := secBytes bs x
  let code := codeWordsOf (countOf ss 1) (bytesOfSect bs ss 1)
  let dict := dictOf (countOf ss 2) (bytesOfSect bs ss 2)
  let lits := litsOf bs ss
  x.off % 8 == 0 && b.length == x.size &&
    !ss.any (fun y => y.ty != x.ty && x.off < y.off + y.size && y.off < x.off + x.size) &&
    (match x.ty with
     | 1 => x.size == 2 * x.count && (!disp || x.count ≤ 2 ^ 24)
     | 2 => x.size == 48 * x.count && x.count ≤ 2048
     | 3 => x.size == 4 * x.count && lits == escapesOf bs ss
     | 4 => (parseRout x.count b).any (fun l => !disp || routOk l)
     | 5 => (parseLant x.count b).any (fun l => lantOk l && (!disp || lantFits l))
     | 6 => x.size == 64 * x.count
     | 7 => x.size == 8 * x.count && (piecesOf 8 x.count b).all (fun r => bytesAt r 4 4 == 0)
     | 8 => x.count == 1 && x.size == 80 && nestOk b
     | 9 => x.size == 24 * x.count && (piecesOf 24 x.count b).all (fun r => bytesAt r 16 8 / 2 == 0)
     | 10 => x.size == x.count
     | 11 => x.size == 24 * x.count && (piecesOf 24 x.count b).all (reloOk bs ss code dict lits)
     | 12 =>
       x.size == 24 * x.count && (piecesOf 24 x.count b).all (fun r =>
         bytesAt r 0 4 < (bytesOfSect bs ss 13).length && bytesAt r 4 2 ≤ 15 && bytesAt r 6 2 ≤ 4 &&
           (bytesAt r 6 2 == 4) == (bytesAt r 4 2 == 0) && bytesAt r 8 4 / 2 == 0 && bytesAt r 12 4 == 0)
     | 13 => x.size == x.count && (b.isEmpty || b.getLast? == some 0)
     | 14 =>
       x.count == 1 && x.size == 48 && bytesAt b 0 8 == bytesAt bs 8 8 && bytesAt b 8 4 == countOf ss 2 &&
         bytesAt b 12 4 == countOf ss 1 &&
         (List.range 256).all (fun i => (bytesAt b 16 32).testBit i ==
           ((parseRout (countOf ss 4) (bytesOfSect bs ss 4)).getD []).any (fun r => r.1 == i))
     | _ => x.count == 1 && x.size == 72)

/-- The section type at fault, 0 for the header, none where the object obeys R91 to R96, and for a dispatch R165, R185 and R302: a code
stream with literals needs the LITS that lists them. -/
def objectFault (disp : Bool) (bs : List Byte) : Option Nat :=
  if !headerOk bs || (disp && !spillOk bs) then some 0
  else
    let ss := sectsOf bs
    match typesRise 1 ss with
    | some t => some t
    | none =>
      match ss.find? (fun x => !sectOk disp bs ss x) with
      | some x => some x.ty
      | none => if litsOf bs ss == escapesOf bs ss then none else some 3

/-- What a launch takes from an object. -/
def imageOf (bs : List Byte) : Image :=
  let ss := sectsOf bs
  let nest := bytesOfSect bs ss 8
  let D := bytesAt nest 0 1
  let lant := (parseLant (countOf ss 5) (bytesOfSect bs ss 5)).getD []
  { id := BitVec.ofNat 64 (bytesAt bs 8 8)
    entry := bytesAt bs 20 4
    code := codeWordsOf (countOf ss 1) (bytesOfSect bs ss 1)
    dict := dictOf (countOf ss 2) (bytesOfSect bs ss 2)
    routines := (parseRout (countOf ss 4) (bytesOfSect bs ss 4)).getD []
    spill := bytesAt bs 28 4
    nestD := D
    perm := (List.range D).map (fun k => bytesAt nest (1 + k) 1)
    indirect := BitVec.ofNat 8 (bytesAt nest 7 1)
    ext := (List.range D).map (fun j => bytesAt nest (8 + 4 * j) 4)
    extAddr := (List.range D).map (fun j => bytesAt nest (32 + 8 * j) 8)
    pages := (piecesOf 24 (countOf ss 9) (bytesOfSect bs ss 9)).map (fun r =>
      (bytesAt r 0 8, bytesAt r 8 8, (bytesAt r 16 8).testBit 0))
    lantA := (lant.find? (fun x => x.1 == 0)).map (·.2)
    lantE := (lant.find? (fun x => x.1 == 1)).map (·.2) }

/-- Reads an object whole: its header, then its section table, then every section. -/
def readObject (s : State) (va : Nat) : FirmGot :=
  match firmRead s va 64 with
  | .ok hdr =>
    if !headerOk hdr then .ok hdr
    else
      (match firmRead s va (max 64 (objectSize hdr)) with
       | .ok bs => firmRead s va (fullSize bs)
       | r => r)
  | r => r

/-- What a refused read of an object leaves. -/
def imageNoted (s : State) (va : Nat) : State :=
  match firmRead s va 64 with
  | .ok hdr =>
    if !headerOk hdr then s
    else
      (match firmRead s va (max 64 (objectSize hdr)) with
       | .ok bs => readNoted s va (fullSize bs)
       | _ => readNoted s va (max 64 (objectSize hdr)))
  | _ => readNoted s va 64

/-- What reading an image ends in: an image, a wait, or the section type at fault. -/
inductive ImageRes where
  | ok (img : Image)
  | wait
  | bad (ty : Nat)

/-- The image of a LAUNCH: it must hold a nest (R96, R318). An object without CODE, DICT or OVLY is taken, and residency goes
by the image id of its header: the spec does not say that these sections must be present (log entry 77). -/
def loadImage (s : State) (va : Nat) : ImageRes :=
  match readObject s va with
  | .wait => .wait
  | .bad _ => .bad 0
  | .ok bs =>
    match objectFault true bs with
    | some t => .bad t
    | none => if (sectBy (sectsOf bs) 8).isNone then .bad 8 else .ok (imageOf bs)

end Sys2Proof.Machine
end

