-- ==== Sys2Proof/Machine/Launch.lean ====
section
/-! DEFINITION. LAUNCH: its checks, the page set, the slices and the dispatch; the release, the freeing of cores and the
completion, and the reload of an instruction buffer (R17 to R26, R176, R185, R318, R334, R339, R349, R352, R386). -/

namespace Sys2Proof.Machine

/-! ## The page set of a deterministic launch (R334, R339) -/

/-- Virtual pages that a page set names, and how many. -/
def rangePages (r : Nat × Nat × Bool) : Nat :=
  if r.2.1 == 0 then 0 else (r.1 + r.2.1 - 1) / pageSize r.2.2 - r.1 / pageSize r.2.2 + 1
def setPages (img : Image) : List Nat :=
  img.pages.flatMap (fun r => (List.range (rangePages r)).map (fun i => (r.1 / pageSize r.2.2 + i) * pageSize r.2.2))

/-- The leaves that map them, each once. A page that nothing maps has no entry to pin. -/
def setLeaves (s : State) (img : Image) : List (Nat × Leaf) :=
  ((setPages img).filterMap (fun va =>
    (if va < 2 ^ 56 then s.walk va else none).map (fun l => (va / pageSize l.large * pageSize l.large, l)))).eraseDups

def entryKey (e : TlbEntry) : Nat × Bool := (e.vpn, e.large)

/-- A cluster cannot pin these entries beside those it has pinned. -/
def pinsOver (k : Cluster) (es : List TlbEntry) : Bool :=
  let keys := ((es ++ k.tlb.filter (·.pinned)).map entryKey).eraseDups
  4096 < keys.length || keys.any (fun e => 8 < (keys.filter (fun y => y.1 % 1024 == e.1 % 1024)).length)

/-- Leases that a page set adds in a dome, as page and cluster. -/
def newLeases (ls : List (Nat × Leaf)) (cls : List Nat) (d : Nat) : List (Nat × Nat) :=
  (ls.filter (fun x => paClass x.2.pa == 0 && domeOf x.2.pa == d)).flatMap (fun x => cls.map (fun cl => (x.2.pa, cl)))

def setDomes (ls : List (Nat × Leaf)) : List Nat :=
  ((ls.filter (fun x => paClass x.2.pa == 0)).map (fun x => domeOf x.2.pa)).eraseDups

/-- A dome cannot hold these pinned leases beside its own. -/
def leasesOver (k : Dome) (new : List (Nat × Nat)) : Bool :=
  8192 < (((k.leases.filter (·.pinned)).map (fun l => (l.page, l.cluster))) ++ new).eraseDups.length

/-- Leases too many in a full table. -/
def leaseExcess (k : Dome) (new : List (Nat × Nat)) : Nat :=
  ((k.leases.map (fun l => (l.page, l.cluster))) ++ new).eraseDups.length - 32768

inductive PinRes where
  | ok (ls : List (Nat × Leaf))
  | wait (s : State)
  | bad

/-- Walks a page set for the clusters of a grid. -/
def pinSet (s : State) (img : Image) (cls : List Nat) : PinRes :=
  let ls := setLeaves s img
  let es := ls.map (fun x => leafEntry x.1 x.2 true)
  if pinsOver Cluster.fresh es then .bad
  else
    if ls.any (fun x => x.2.moving || recallOver s x.2.pa) then .wait s
    else if cls.any (fun cl => pinsOver (s.cluster cl) es) || (setDomes ls).any (fun d => leasesOver (s.dome d) (newLeases ls cls d))
      then .bad
    else
      match (setDomes ls).find? (fun d => 0 < leaseExcess (s.dome d) (newLeases ls cls d)) with
      | none => .ok ls
      | some d =>
        .wait ((((s.dome d).leases.filter (fun l => !l.pinned)).take (leaseExcess (s.dome d) (newLeases ls cls d))).foldl
          (fun s l => evictLease l s) s)

/-- Pins a page set in one cluster. -/
def pinIn (ls : List (Nat × Leaf)) (cl : Nat) (s : State) : State :=
  ls.foldl (fun s x =>
    let s := grantLease s x.2.pa x.2.large cl true
    s.setCluster cl { s.cluster cl with tlb := tlb2Use (s.cluster cl).tlb (leafEntry x.1 x.2 true) }) s

/-! ## Spill overflow areas (R185) -/

inductive OvfRes where
  | ok (l : List (Nat × Nat))
  | wait
  | bad (va : Nat)

/-- The granules of an overflow area, each readable and writable dome memory. -/
def ovfGranules (s : State) : List Nat → OvfRes
  | [] => .ok []
  | va :: l =>
    match if va < 2 ^ 56 then s.translate va else none with
    | none => .bad va
    | some (pa, lf) =>
      if !(paClass pa == 0 && lf.read && lf.write) then .bad (va / pageSize lf.large * pageSize lf.large)
      else if lf.moving then .wait
      else
        match ovfGranules s l with
        | .ok g => .ok ((va / 65536, pa) :: g)
        | r => r

def ovfBase (f : LaunchCmd) (c : Nat) : Nat := f.spillovf + c * 2 ^ 24
def ovfArea (f : LaunchCmd) (c : Nat) : List Nat := (List.range 256).map (fun i => ovfBase f c + i * 65536)

/-- The areas of every logical core, in ascending order. -/
def ovfAll (s : State) (f : LaunchCmd) (P : Nat) : OvfRes := ovfGranules s ((List.range P).flatMap (ovfArea f))

/-! ## The nest (R18 to R20) -/

/-- A permutation lists each dimension once. -/
def permOk (img : Image) : Bool := img.perm.length == img.nestD && img.perm.all (· < img.nestD) && decide img.perm.Nodup

inductive ExtRes where
  | ok (es : List Nat)
  | wait
  | bad (va : Nat)

/-- The extents by dimension; an indirect one is read once, as an n32 (R19). -/
def readExtents (s : State) (img : Image) : List Nat → ExtRes
  | [] => .ok []
  | j :: l =>
    let one : FirmGot := if img.indirect.getLsbD j then firmRead s (img.extAddr.getD j 0) 4
      else .ok (toBytes (img.ext.getD j 0) 4)
    match one with
    | .wait => .wait
    | .bad va => .bad va
    | .ok bs => (match readExtents s img l with | .ok es => .ok (ofBytes bs :: es) | r => r)

def product (l : List Nat) : Nat := l.foldl (· * ·) 1

/-- The slice of logical core c of P over N iterations: its start and its length (R20). -/
def sliceOf (N P c : Nat) : Nat × Nat :=
  let q := N / P
  let r := N % P
  (c * q + min c r, q + (if c < r then 1 else 0))

/-- Indices of a linear index, innermost extent first. -/
def digits : List Nat → Nat → List Nat
  | [], _ => []
  | e :: l, n => n % e :: digits l (n / e)

/-- Indices by place, outermost first (R18). -/
def unlinear (exts : List Nat) (lin : Nat) : List Nat := (digits exts.reverse lin).reverse

/-! ## The checks of a dispatch, in the order of R318 -/

/-- What a dispatch needs. -/
structure Ready where
  img : Image
  ext : List Nat
  grid : List Nat
  leaves : List (Nat × Leaf)
  ovf : List (Nat × Nat)

inductive DispRes where
  | ok (r : Ready)
  | wait (s : State)
  | bad (status detail : Nat)

def clustersOf (grid : List Nat) : List Nat := (grid.map (· / 8)).eraseDups

/-- Checks 5 and 6: the count of the nest and the spill overflow areas. -/
def checkRest (s : State) (f : LaunchCmd) (img : Image) (grid : List Nat) (ls : List (Nat × Leaf)) (es : List Nat) : DispRes :=
  if 2 ^ 48 - 1 < product es then .bad 3 0
  else
    match ovfAll s f (f.gx * f.gy) with
    | .wait => .wait s
    | .bad va => .bad 5 va
    | .ok ovf => .ok { img := img, ext := es, grid := grid, leaves := ls, ovf := ovf }

/-- The hash of a grid as a launch header records it (R389). -/
def gridHash (cores : List Nat) : List Byte := (Config.sm3 (cores.flatMap (fun c => toBytes c 2))).take 32

/-- The header's record of the grid cannot be read yet. -/
def hashWaits (s : State) (ctx : Nat) : Bool := match firmRead s (ctx + 24) 32 with | .wait => true | _ => false

/-- A resumed launch takes the physical cores that its context, and the header in its area, record (R391). -/
def sameGrid (s : State) (f : LaunchCmd) (grid : List Nat) : Bool :=
  (look s.contexts f.ctx).any (fun x => x.launch.cores == grid) &&
    (match firmRead s (f.ctx + 24) 32 with | .ok bs => bs == gridHash grid | _ => true)

/-- Checks 2 to 4: the grid, the permutation, the indirect extents. A resumed nest is restored and is not read again. -/
def checkGrid (s : State) (f : LaunchCmd) (img : Image) (ls : List (Nat × Leaf)) : DispRes :=
  match gridOf s f with
  | none => .bad 2 0
  | some grid =>
    if f.resume && !sameGrid s f grid then .bad 2 0
    else if !permOk img then .bad 3 0
    else if f.resume then checkRest s f img grid ls []
    else
      match readExtents s img (List.range img.nestD) with
      | .wait => .wait s
      | .bad va => .bad 5 va
      | .ok es => checkRest s f img grid ls es

/-- Check 1 beyond the object itself: lantern entries that no dome is to load, and the page set. -/
def checkLaunch (s : State) (f : LaunchCmd) : DispRes :=
  match loadImage s f.image with
  | .wait => .wait s
  | .bad t => .bad 4 t
  | .ok img =>
    if (img.lantA.isSome || img.lantE.isSome) && f.ndome == 0 then .bad 4 5
    else if !f.det then checkGrid s f img []
    else
      match pinSet s img (clustersOf ((gridOf s f).getD [])) with
      | .bad => .bad 4 9
      | .wait s' => .wait s'
      | .ok ls => checkGrid s f img ls

/-! ## Dispatch -/

/-- The registers that outlast a context: the error counters, the first-level TLB, and what is resident. -/
def keepCore (k : Core) : Core :=
  { Core.fresh with
    ceCnt := k.ceCnt
    ueCnt := k.ueCnt
    ftoCnt := k.ftoCnt
    tlb := k.tlb
    injCtl := k.injCtl
    injStat := k.injStat
    injFrom := k.injFrom }

/-- Dictionary and code of a dispatched core: a core that holds the image's own loads neither (R25). -/
def loadCode (img : Image) (k old : Core) : Core :=
  if old.tagImage == some img.id then
    { k with tagImage := old.tagImage, badDict := old.badDict, seq := { k.seq with code := old.seq.code, dict := old.seq.dict } }
  else { k with tagImage := some img.id, badDict := [], seq := { k.seq with code := img.code, dict := img.dict } }

/-- A core of logical index c at dispatch (R22). -/
def dispatchCore (s : State) (n : Nat) (f : LaunchCmd) (r : Ready) (N c : Nat) (old : Core) : Core :=
  let sl := sliceOf N (f.gx * f.gy) c
  let ext := r.img.perm.map (fun j => r.ext.getD j 0)
  let idx := unlinear ext sl.1
  let k := { keepCore old with
    mode := .loaded
    launch := some n
    logIdx := c
    gridX := c % f.gx
    gridY := c / f.gx
    detMode := f.det
    loops := (r.img.perm.zip idx).map (fun x => (x.1, BitVec.ofNat 32 x.2))
    pendNest := .slice r.img.perm ext idx sl.2
    spillBase := 524288 - r.img.spill
    spillSize := r.img.spill
    spillOvf := ovfBase f c
    ovfPages := r.ovf.filter (fun g => g.1 / 256 == ovfBase f c / 2 ^ 24)
    pwrLim := pwrLimAt s.fw.power
    mx := { Matrix.empty with user := r.img.routines }
    seq := { Seq.empty with
             nid := 1
             pos := r.img.entry
             queues := [oneEntry 0 (BitVec.ofNat 64 sl.1), oneEntry 1 (BitVec.ofNat 64 sl.2)] } }
  loadCode r.img k old

/-- Replica homes of a deterministic launch: domes by number, CLMs from 128 on (R352). -/
def replicaSet (r : Ready) (doms : List Nat) : List Nat :=
  ((setDomes r.leaves ++ (r.ovf.map (fun g => domeOf g.2)) ++ doms).eraseDups) ++ (clustersOf r.grid).map (128 + ·)

/-- Lead time of a deterministic group (R352). -/
def leadFor (cores homes : List Nat) : Nat :=
  let doms := homes.filter (· < 128)
  let regions := (cores.map (fun c => regionOf (coreSite c)) ++ doms.map (fun d => regionOf (domeSite d))).eraseDups
  if regions.length ≤ 1 then (if doms.isEmpty then leadOf (min 2 (rootLevel cores)) else 24) else 64

def launchDomes (img : Image) (f : LaunchCmd) : List Nat :=
  if img.lantA.isSome || img.lantE.isSome then rangeFrom f.ldome (f.ldome + f.ndome) else []

/-- The record of a dispatched launch. -/
def launchRec (s : State) (h : CmdHdr) (f : LaunchCmd) (r : Ready) (active : List Nat) : Launch :=
  let doms := launchDomes r.img f
  let pairs := doms.flatMap (fun d => (s.livePairs d).map (fun i => 64 * d + i))
  let homes := if f.det then replicaSet r doms else []
  { hdr := h
    cmd := f
    image := r.img
    cores := r.grid
    active := active
    lantDomes := doms
    pairs := pairs
    pairsLeft := pairs
    detMode := f.det
    lead := if f.det then leadFor r.grid homes else 0
    replicas := homes
    released := false
    vcc0 := 0
    bells := (List.range 8).map (fun b => (b, Peal.start active))
    ending := none
    preempt := none
    saved := [] }

/-- Every core of the grid takes its context; those without an iteration are discarded (R21). -/
def dispatch (h : CmdHdr) (f : LaunchCmd) (r : Ready) (s : State) : State :=
  let P := f.gx * f.gy
  let N := product r.ext
  let s := if f.det then (clustersOf r.grid).foldl (fun s cl => pinIn r.leaves cl s) s else s
  let a := s.freshId
  let busy := (List.range P).filter (fun c => (sliceOf N P c).2 != 0)
  let s := busy.foldl (fun s c => let p := r.grid.getD c 0
                                  s.setCore p (dispatchCore s a.1 f r N c (s.core p))) a.2
  let L := launchRec s h f r (busy.map (fun c => r.grid.getD c 0))
  { s with launches := put s.launches a.1 L }

/-- The cores of a grid that something still holds. -/
def gridBusy (s : State) (grid : List Nat) : Bool :=
  grid.any (fun c => (s.core c).mode != .free || s.launches.any (fun x => x.2.active.contains c))

/-- What the firmware's refused reads of an object, or of an indirect extent, leave at their homes. -/
def refusalNoted (s : State) (f : LaunchCmd) (st d : Nat) : State :=
  if st == 4 then imageNoted s f.image else if st == 5 then readNoted s d 4 else s

/-- LAUNCH (R318): its checks in order, then its dispatch. No launch is dispatched while a patch overlay waits to be loaded
(R415). -/
def launchCommand (h : CmdHdr) (f : LaunchCmd) (s : State) : State :=
  whenRunning h s (fun run =>
    if run.begun || s.fw.patchHeld.isSome then s
    else
      match checkLaunch s f with
      | .wait s' => s'
      | .bad st d => complete h st (BitVec.ofNat 64 d) (refusalNoted s f st d)
      | .ok r =>
        if product r.ext == 0 then complete h 0 0 s
        else if gridBusy s r.grid then s
        else (dispatch h f r s).modRun h.q h.slot (fun x => { x with begun := true }))
def execLaunch (h : CmdHdr) (f : LaunchCmd) (s : State) : Out := .next (launchCommand h f s)

/-! ## The release of a dispatch (R349) -/

/-- A core that the dispatch holds; a restored one may have a wait to send again. -/
def waitsRelease (m : CoreMode) : Bool := match m with | .loaded => true | .stop true => true | _ => false

/-- A member of a resumed launch goes on from its saved VCC; its waits are sent again alone (R391). -/
def releaseMember (s : State) (c : Nat) : State :=
  match (s.core c).mode with
  | .stop true => resumeWaits (s.modCore c (fun k => { k with mode := .run, waits := [] })) c (s.core c).waits
  | _ => setMode s c .run

/-- Every member is loaded: its cores, and in deterministic mode its lantern pairs. -/
def membersLoaded (s : State) (n : Nat) (L : Launch) : Bool :=
  L.active.all (fun c => waitsRelease (s.core c).mode) && (!L.detMode || L.pairs.all (fun p => (s.pair p).launch == some n))

/-- DISPATCH_RELEASE (R349): the members are released together. A lantern fault alone keeps no core from it (R313). -/
def dispatchRelease (n : Nat) (s : State) : State :=
  match s.launchOf n with
  | none => s
  | some L =>
    if L.released || L.ending.any (fun e => e.status != 7) || !membersLoaded s n L then s
    else
      let s := s.modLaunch n (fun L => { L with released := true })
      let s := L.active.foldl releaseMember s
      L.pairs.foldl (fun s p => s.modPair p (fun k => { k with loaded := true })) s
def execDispatchRelease (n : Nat) (s : State) : Out := .next (dispatchRelease n s)

/-! ## Reload of the instruction buffer (R386) -/

/-- The last cycle in which the entries of a core land. -/
def lastDue (k : Core) : Nat := k.seq.queues.foldl (fun t q => q.2.foldl (fun t e => max t e.due) t) 0

/-- A core after the reload of its buffer from an image. -/
def reloaded (img : Image) (k : Core) : Core :=
  { k with mode := .run, badDict := [],
           seq := { k.seq with code := img.code, dict := img.dict, nextAt := max k.seq.vcc (lastDue k) } }

/-- IBUF_RELOAD: code and dictionary are taken from the image in device memory, and the bundle at EPC issues. Where the object can be
read no more or breaks its format, the spec says nothing: the IBUF_ERROR is then reported (DESIGN CHOICE). -/
def ibufReload (c : Nat) (s : State) : State :=
  let k := s.core c
  match k.mode, k.launch.bind s.launchOf with
  | .reload, some L =>
    (match loadImage s L.cmd.image with
     | .ok img => s.setCore c (reloaded img k)
     | .wait => s
     | .bad _ => setMode (imageNoted s L.cmd.image) c (.trap false))
  | _, _ => s
def execIbufReload (c : Nat) (s : State) : Out := .next (ibufReload c s)

/-- Cycles within which a reload completes, by the bytes of CODE and DICT. -/
def reloadBound (k : Core) : Nat := 4096 + (2 * k.seq.code.length + 48 * k.seq.dict.length + 63) / 64

/-- A reload that must be done before the clock goes on. -/
def reloadDue (s : State) (c : Nat) : Bool :=
  let k := s.core c
  (match k.mode with | .reload => true | _ => false) && k.trapAt + reloadBound k ≤ s.now &&
    ((ibufReload c s).core c).mode != k.mode

/-! ## Freeing a core (R24, R25, R176) -/

/-- Every engine queue of an ended core reports empty; a matrix unit that stopped on a fault has no command to finish. -/
def coreEmpty (s : State) (c : Nat) : Bool :=
  let k := s.core c
  (match k.mode with | .ended => true | .trap true => true | _ => false) &&
    k.ldq.isEmpty && k.stq.isEmpty && k.out.isEmpty && k.gated.isEmpty && k.bellHeld.isEmpty && k.fills.isEmpty &&
    k.seq.stores.isEmpty && k.eng0.queue.isEmpty && k.eng1.queue.isEmpty && enginesLeft k && k.tops.isEmpty &&
    (k.mx.queue.isEmpty || k.mx.fault.isSome) && !s.reps.any (fun r => r.acc.src == .core c)

/-- The scratchpads are cleared, with their check state. -/
def clearScratch (c : Nat) (s : State) : State :=
  let lo := localBase c 0
  { s with mem := s.mem.clear lo (lo + 2 ^ 22), bad := s.bad.filter (fun u => u < lo || lo + 2 ^ 22 ≤ u) }

/-- A freed core: its queues are cleared; its counters and its record of the last trap stay to be read. -/
def freedCore (k : Core) : Core :=
  { keepCore k with
    lateFrz := k.lateFrz
    frzCnt := k.frzCnt
    qUnder := k.qUnder
    faultMask := k.faultMask
    cause := k.cause
    epc := k.epc
    frec := k.frec
    pwrLim := k.pwrLim
    tagImage := k.tagImage
    badDict := k.badDict
    seq := { Seq.empty with vcc := k.seq.vcc, code := k.seq.code, dict := k.seq.dict } }

/-- CORE_FREE. The power-freeze cycles that the core has asked for still come (R371). -/
def coreFree (c : Nat) (s : State) : State :=
  if !coreEmpty s c then s
  else
    let l := (s.core c).launch
    let asked := (s.core c).pfAt
    let s := (clearScratch c s).modCore c freedCore
    match l with
    | some n => stopLeft n (s.modLaunch n (fun L =>
        { L with active := L.active.filter (· != c), pfAsk := L.pfAsk ++ (if L.detMode then asked else []) }))
    | none => s
def execCoreFree (c : Nat) (s : State) : Out := .next (coreFree c s)

/-! ## Completion (R26) -/

/-- The page sets of the deterministic launches other than n that have cores in a cluster. -/
def otherPins (s : State) (n cl : Nat) : List (Nat × Bool) :=
  (s.launches.filter (fun x => x.1 != n && x.2.detMode && (clustersOf x.2.cores).contains cl)).flatMap (fun x =>
    (setLeaves s x.2.image).map (fun y => (y.1 / pageSize y.2.large, y.2.large)))

/-- The entries and leases that a launch pinned are pinned no more, where no other launch pins them. -/
def unpinIn (n : Nat) (s : State) (cl : Nat) : State :=
  let keep := otherPins s n cl
  let gone := (s.cluster cl).tlb.filter (fun e => e.pinned && !keep.contains (entryKey e))
  let s := s.setCluster cl { s.cluster cl with
    tlb := (s.cluster cl).tlb.map (fun e => if gone.contains e then { e with pinned := false } else e) }
  gone.foldl (fun s e =>
    if paClass e.pa != 0 then s
    else
      s.modDome (domeOf e.pa) (fun k => { k with leases := k.leases.map (fun l =>
        if l.page == e.pa && l.cluster == cl then { l with pinned := false } else l) })) s

/-- A patch overlay that waited for running launches becomes resident (R415). -/
def loadPatch (s : State) : State :=
  match s.fw.patchHeld with
  | some (v, h) =>
    { s with
      fw := { s.fw with patchVer := v, patchHash := h, patchHeld := none, patchStat := 2 }
      cores := s.cores.map (fun x => (x.1, { x.2 with tagImage := none })) }
  | none => s

/-- A PREEMPT that stands against a launch ends with a status. -/
def endPreempt (L : Launch) (status : Nat) (s : State) : State :=
  match L.preempt with
  | some (q, slot) => completeCmd q slot status 0 s
  | none => s

/-- A launch leaves the panel: it is unpinned, and its command completes. -/
def retireLaunch (n : Nat) (L : Launch) (status : Nat) (detail : W64) (s : State) : State :=
  let s := if L.detMode then (clustersOf L.cores).foldl (unpinIn n) s else s
  let s := { s with launches := drop s.launches n, freezes := s.freezes.filter (fun f => f.group != .launch n) }
  let s := completeCmd L.hdr.q L.hdr.slot status detail s
  if s.launches.isEmpty then loadPatch s else s

/-- LAUNCH_COMPLETE (R26): every core of the grid is freed or discarded, and every pair that took its programs has halted. -/
def launchComplete (n : Nat) (s : State) : State :=
  match s.launchOf n with
  | none => s
  | some L =>
    if !L.active.isEmpty || !L.pairsLeft.isEmpty || (!L.saved.isEmpty && L.ending.isNone) then s
    else
      let e := L.ending.getD { status := 0, detail := 0 }
      endPreempt L 12 (retireLaunch n L e.status e.detail s)
def execLaunchComplete (n : Nat) (s : State) : Out := .next (launchComplete n s)

end Sys2Proof.Machine
end

