-- ==== Sys2Proof/Machine/Area.lean ====
section
/-! DEFINITION. The context area of a pre-empted launch (R389): the launch header with its peal masks (R369), the image of a core,
and what a restore takes from it (R97, R172, R250, R391). Where the table of R389 names what a range holds but not its layout, the
layout is the model's (DESIGN CHOICE); each definition says it. -/

namespace Sys2Proof.Machine

def numbers (n : Nat) (l : List Nat) : List Byte := l.flatMap (fun v => toBytes v n)
def parts (base step n : Nat) (f : Nat → List Byte) : List (Nat × List Byte) := (List.range n).map (fun i => (base + step * i, f i))

/-- The 8-byte word of an image at an offset, and a field of a word. -/
def wordAt (im : List Byte) (o : Nat) : Nat := ofBytes ((im.drop o).take 8)
def field (v lo n : Nat) : Nat := v / 2 ^ lo % 2 ^ n

/-! ## The launch header -/

/-- The nodes of the tree in the order of R369: clusters, spires, regions, cupola; each by its level and its number. -/
def pealNodes : List (Nat × Nat) :=
  (List.range 1024).map (fun i => (0, i)) ++ (List.range 128).map (fun i => (1, i)) ++
    (List.range 16).map (fun i => (2, i)) ++ [(3, 0)]

def regionOfCore (c : Nat) : Nat := regionOf (coreSite c)

/-- The node of a level that stands above a core. -/
def nodeAbove (level c : Nat) : Nat :=
  match level with
  | 0 => c / 8
  | 1 => c / 64
  | 2 => regionOfCore c
  | _ => 0

/-- The spires of a region in ascending index. -/
def regionSpires (r : Nat) : List Nat := (List.range 128).filter (fun sp => regionOfCore (64 * sp) == r)

/-- The bit of a node's mask that stands for the child above a core (R369). -/
def childBit (level c : Nat) : Nat :=
  match level with
  | 0 => c % 8
  | 1 => c / 8 % 8
  | 2 => (regionSpires (regionOfCore c)).idxOf (c / 64)
  | _ => regionOfCore c

/-- A mask with these bits. -/
def bitMask (l : List Nat) : Nat := (l.eraseDups.map (2 ^ ·)).foldl (· + ·) 0

/-- The mask of a node at a bell: the children below which a participant stands. -/
def nodeMask (p : Peal) (nd : Nat × Nat) : Nat :=
  bitMask ((p.parts.filter (fun c => nodeAbove nd.1 c == nd.2)).map (childBit nd.1))

/-- The arrival flags of a node at a bell: the children whose every participant has arrived. -/
def nodeFlags (p : Peal) (nd : Nat × Nat) : Nat :=
  let mine := p.parts.filter (fun c => nodeAbove nd.1 c == nd.2)
  bitMask ((mine.filter (fun c => (mine.filter (fun d => childBit nd.1 d == childBit nd.1 c)).all p.arrived.contains)).map
    (childBit nd.1))

/-- The masks of a node for bells 0 to 7, then its arrival flags for them: one byte each, two at the cupola (DESIGN CHOICE). -/
def nodeImage (L : Launch) (nd : Nat × Nat) : List Byte :=
  let w := if nd.1 == 3 then 2 else 1
  let ps := (List.range 8).map L.bell
  numbers w (ps.map (fun p => nodeMask p nd)) ++ numbers w (ps.map (fun p => nodeFlags p nd))

def pealImage (L : Launch) : List Byte := pealNodes.flatMap (nodeImage L)

/-! ## The image of a core -/

def waitKind : Option Wait → Nat
  | some (.cwait ..) => 1
  | some (.twait ..) => 2
  | some (.bwait ..) => 3
  | _ => 0

/-- The first word of a core image: resume position, pending wait, handler, quiet region. -/
def resumeWord (k : Core) (w : Option Wait) : Nat :=
  k.seq.pos + (if w.isSome then 2 ^ 24 else 0) + waitKind w * 2 ^ 25 + (if inHandler k then 2 ^ 27 else 0) +
    (match k.quiet with | some n => 2 ^ 28 + n * 2 ^ 29 | none => 0)

/-- The request of a pending wait: three words, for WAITV the address, the value, and the condition with its width in bit 8; for the
others the tag or the bell in the first (DESIGN CHOICE: the widths within the 24 bytes). -/
def waitImage (w : Option Wait) : List Byte :=
  match w with
  | some (.waitv x) =>
    numbers 8 [x.pa, x.data.toNat, (match x.kind with | .waitv cond wide => cond + (if wide then 256 else 0) | _ => 0)]
  | some (.cwait tag ..) => numbers 8 [tag.toNat, 0, 0]
  | some (.twait tag ..) => numbers 8 [tag.toNat, 0, 0]
  | some (.bwait b _) => numbers 8 [b, 0, 0]
  | _ => numbers 8 [0, 0, 0]

/-- The holds of the six positions: the slot's bits, then the valid flag. -/
def holdsImage (hs : List (Pos × Instr)) : List Byte :=
  allPos.flatMap (fun pos =>
    match hs.find? (fun h => h.1 == pos) with
    | some h => numbers 8 [encodeSlot h.2, 1]
    | none => numbers 8 [0, 0])

def controlImage (k : Core) : List Byte :=
  numbers 8 [k.uivec.toNat, k.uistat.toNat, k.faultMask.toNat, k.cause.toNat, k.epc.toNat, k.frzCnt, k.lateFrz, k.qUnder,
    k.spillBase, k.spillOvf, k.handlerDepth]

def predImage (k : Core) : List Byte :=
  numbers 8 ((List.range 16).map (fun n => if n == 0 then 2 ^ 64 - 1 else (lookD k.seq.preds n 0).toNat))

/-- A place of a nest: its extent and a second number of 32 bits. -/
def nestPlace (ext snd : List Nat) (i : Nat) : Nat := ext.getD i 0 % 2 ^ 32 + snd.getD i 0 % 2 ^ 32 * 2 ^ 32
def regsWord (regs : List Nat) : Nat := ofBytes ((List.range 6).map (fun i => BitVec.ofNat 8 (regs.getD i 0)))

/-- l0 to l5, one word each, then the loop sequencer: the pending nest in eight words (kind 0 empty, 1 slice, 2 set in [1:0], its
places from bit 8, a byte for each register from bit 16; six places; the count), the active nest in nine (valid and places; the
registers; six places of extent and index; body and end; the count and the depth) (DESIGN CHOICE: the layout). -/
def loopImage (k : Core) : List Byte :=
  numbers 8 ((List.range 6).map (fun i => (lookD k.loops i 0).toNat)) ++
  (match k.pendNest with
   | .empty => numbers 8 (List.replicate 8 0)
   | .slice regs ext start count =>
     numbers 8 ([1 + regs.length * 2 ^ 8 + regsWord regs * 2 ^ 16] ++ (List.range 6).map (nestPlace ext start) ++ [count])
   | .set places =>
     numbers 8 ([2] ++ (List.range 6).map (fun i =>
       match places.find? (fun p => p.1 == i) with
       | some p => p.2.2 % 2 ^ 32 + (p.2.1 + 2 ^ 8) * 2 ^ 32
       | none => 0) ++ [0])) ++
  (match k.actNest with
   | none => numbers 8 (List.replicate 10 0)
   | some a =>
     numbers 8 ([1 + a.regs.length * 2 ^ 8 + a.d0 * 2 ^ 16, regsWord a.regs] ++ (List.range 6).map (nestPlace a.ext a.idx) ++
       [a.start + a.stop * 2 ^ 32, a.cnt]))

/-- The return stack, newest first in 4 bytes each, and its depth at byte 64 (DESIGN CHOICE: the layout). -/
def stackImage (k : Core) : List Byte :=
  numbers 4 ((List.range 16).map (fun i => k.seq.rstack.getD i 0)) ++ toBytes k.seq.rstack.length 8

/-- A scalar queue: its count and its entries from the oldest. -/
def xImage (k : Core) (q : QName) : List Byte :=
  let l := k.seq.entries q
  toBytes l.length 8 ++ l.flatMap (fun e => toBytes (toX (e.data.getD 0)).toNat 8)

def vImage (k : Core) (n : Nat) : List Byte :=
  (k.seq.entries ⟨.v, n⟩).flatMap (fun e => toBytes (e.data.getD 0).toNat 64)

/-- A handle in 32 bytes: valid, read, write, large in bits 0 to 3, its cause in [15:8] and the class of its page in [19:16], then
the virtual and the physical page base (DESIGN CHOICE: the layout). -/
def handleImage (k : Core) (n : Nat) : List Byte :=
  let h := k.handle n
  numbers 8 [(if h.valid then 1 else 0) + (if h.read then 2 else 0) + (if h.write then 4 else 0) + (if h.large then 8 else 0) +
    h.cause.toNat * 2 ^ 8 + paClass h.pa * 2 ^ 16, h.va, h.pa, 0]

/-- The pattern word of a stream register (R190). -/
def streamWord (g : Stream) : Nat := g.w + g.n * 2 ^ 8 + g.period * 2 ^ 16 + g.first * 2 ^ 24 + g.start * 2 ^ 32

/-- A stream register: pattern word and position; zero, which is no pattern, where none is set. -/
def streamImage (k : Core) (n : Nat) : List Byte :=
  match look k.streams n with
  | some g => numbers 8 [streamWord g, g.pos]
  | none => numbers 8 [0, 0]

/-- A bell: its four items as n32 words. -/
def bellImage (k : Core) (b : Nat) : List Byte :=
  let x := k.bell b
  numbers 4 [x.gen, if x.arrived then 1 else 0, x.count, x.sent]

/-! ### The matrix unit (R172) -/

/-- The word of R158 that configures a ring; zero, which no ring has, for none. -/
def ringWord (g : Ring) : Nat :=
  match g.conf with
  | none => 0
  | some r => r.sp + r.fmt * 8 + (r.klen - 1) * 64 + r.trows % 512 * 2 ^ 13 + r.ntile * 2 ^ 22 + r.base * 2 ^ 32

/-- A ring: its configuration word, head and tail. -/
def ringImage (x : Matrix) (n : Nat) : List Byte :=
  let g := ringAt x n
  toBytes (ringWord g) 8 ++ numbers 4 [g.head, g.tail]

/-- A queued command: valid and kind in [2:0], its fields, and its captured or drain word (DESIGN CHOICE: the layout). -/
def cmdImage (m : MCmd) : List Byte :=
  match m with
  | .mcall r ra rb ks => numbers 8 ([1 + r * 2 ^ 10 + ra * 2 ^ 18 + rb * 2 ^ 21] ++ ks.map (·.toNat))
  | .mring r w => numbers 8 [3 + r * 2 ^ 10, w.toNat]
  | .madv r n => numbers 8 [5 + r * 2 ^ 10 + n * 2 ^ 16]
  | .mdrain f rm w => numbers 8 [7 + f * 2 ^ 10 + rm.toNat * 2 ^ 13, w.toNat]

/-- The tile index of a bank within its ring: R172 does not say which number it is; here it is the ring's slot, head + tb modulo
ntile (DESIGN CHOICE). -/
def bankTile (x : Matrix) (m : MSeq) (b : Option Bank) : Nat :=
  match b, (ringAt x m.rb).conf with
  | some k, some r => k.tile % r.ntile
  | some k, none => k.tile % 2 ^ 16
  | none, _ => 0

def flag (b : Bool) (i : Nat) : Nat := if b then 2 ^ i else 0

/-- Lane i of the open loops, outermost first: body start and remaining count. -/
def loopOf (m : MSeq) (i : Nat) : Nat × Nat := m.loops.reverse.getD i (0, 0)

/-- The resume cursor of an MCALL: the captured k0 to k7 and four words (R172). -/
def callCursor (x : Matrix) (m : MSeq) : List Nat :=
  m.ks.map (·.toNat) ++
  [m.pos + m.routine * 2 ^ 10 + m.ra * 2 ^ 18 + m.rb * 2 ^ 21 + flag m.touchA 24 + flag m.touchB 25 + flag m.bank0.isSome 26 +
     flag m.bank1.isSome 27 + m.scaleA.toNat * 2 ^ 28 + flag m.modeA 36 + m.scaleB.toNat * 2 ^ 37 + flag m.modeB 45 +
     m.loops.length * 2 ^ 46,
   (loopOf m 0).2 + (loopOf m 1).2 * 2 ^ 32,
   (m.acur % 2 ^ 16).toNat + (m.ccur % 2 ^ 16).toNat * 2 ^ 16 + m.ta % 2 ^ 16 * 2 ^ 32 + m.tb % 2 ^ 16 * 2 ^ 48,
   bankTile x m m.bank0 + bankTile x m m.bank1 * 2 ^ 16 + (loopOf m 0).1 * 2 ^ 32 + (loopOf m 1).1 * 2 ^ 42]

/-- Eight rings of 16 bytes, the resume cursor in 96 (of a drain its word, with fmt and rm in the next), a word that says whether a
call is under way, then eight queued commands of 80 bytes (DESIGN CHOICE: the places). -/
def matrixSegs (k : Core) : List (Nat × List Byte) :=
  let x := k.mx
  parts 0x25C0 16 8 (ringImage x) ++
  [(0x2640, match x.mseq, x.queue with
            | some m, _ => numbers 8 (callCursor x m ++ [1])
            | none, .mdrain f rm w :: _ => numbers 8 ([w.toNat, f + rm.toNat * 8] ++ List.replicate 11 0)
            | none, _ => numbers 8 (List.replicate 13 0))] ++
  parts 0x26C0 80 8 (fun i =>
    match x.queue[i]? with
    | some m => let bs := cmdImage m; bs ++ List.replicate (80 - bs.length) 0
    | none => List.replicate 80 0)

/-! ### The copy engines (R250) -/

/-- The record of R237 as it stands in AMEM. -/
def recImage (r : CopyRec) : List Byte :=
  let two := fun l : List Int => l.map (fun t => (t % 2 ^ 32).toNat)
  let bs := numbers 4 ([r.skind + r.dkind * 8 + r.dims * 64 + r.e * 512 + flag r.chk 11, r.sbase, r.dbase, 0] ++ r.ext ++
    two r.sstr ++ two r.dstr ++ [r.expect.toNat])
  bs ++ List.replicate (128 - bs.length) 0

/-- The 21 words of R250 for a command, and a word that says that the place is taken, whether the command has started, and whether it
is a CPYSUM. -/
def runImage (r : CopyRun) : List Byte :=
  let rec? := r.recs[r.ridx]?
  (match rec? with | some x => recImage x | none => List.replicate 128 0) ++
  numbers 8
    [r.done % 2 ^ 32 + r.ridx * 2 ^ 32,
     r.value.toNat + r.status * 2 ^ 32 + flag (r.acq && r.bytes != 0) 35,
     r.tag.toNat + flag r.acq 16 + flag r.rel 17 + r.scope * 2 ^ 18,
     (match rec? with | some x => if x.skind == 7 then x.spa else 0 | none => 0),
     (match rec? with | some x => if x.dkind == 7 then x.dpa else 0 | none => 0),
     1 + flag r.started 1 + flag r.sum 2]

/-- Sixteen places of 192 bytes, the command under way first, each in the words of the resume cursor (DESIGN CHOICE: that a queued
command takes the cursor's form). -/
def engineSegs (base : Nat) (x : CopyEngine) : List (Nat × List Byte) :=
  parts base 192 16 (fun i => match x.queue[i]? with | some r => runImage r | none => List.replicate 192 0)

/-! ### T-ops (R276, R282) -/

/-- Outstanding tags: their number, then up to 124 tags of 2 bytes; then a word for each of 64 kept statuses: tag, status, valid
(DESIGN CHOICE: the layout). -/
def topSegs (k : Core) : List (Nat × List Byte) :=
  let tags := k.tops.take 124
  [(0x3640, toBytes tags.length 8 ++ numbers 2 (tags.map (·.toNat) ++ List.replicate (124 - tags.length) 0))] ++
  parts 0x3740 8 64 (fun i =>
    match k.reports[i]? with
    | some r => toBytes (r.tag.toNat + r.status * 2 ^ 16 + 2 ^ 63) 8
    | none => toBytes 0 8)

/-- What the spec says of the first 60 KiB of a core image. -/
def coreSegs (k : Core) (w : Option Wait) : List (Nat × List Byte) :=
  [(0, toBytes (resumeWord k w) 8), (0x08, waitImage w), (0x20, holdsImage k.seq.holds), (0x80, controlImage k),
   (0x100, predImage k), (0x180, loopImage k), (0x280, stackImage k)] ++
  parts 0x300 64 64 (fun i => xImage k ⟨.x, i⟩) ++
  parts 0x1300 64 8 (fun i => xImage k ⟨.sh, 56 + i⟩) ++
  parts 0x1500 32 32 (handleImage k) ++
  parts 0x1900 16 32 (streamImage k) ++
  parts 0x1B00 8 8 (fun i => toBytes (lookD k.kregs i 0).toNat 8) ++
  parts 0x1B40 16 8 (bellImage k) ++
  parts 0x1BC0 64 16 (fun i => toBytes (lookD k.descs i (0, none)).1.toNat 64) ++
  parts 0x1FC0 1 1536 (fun i => toBytes (k.seq.entries ⟨.v, i⟩).length 1) ++
  matrixSegs k ++ engineSegs 0x2A40 k.eng0 ++ topSegs k ++
  (if inHandler k then [(0x3A00, holdsImage k.savedHolds)] else []) ++
  engineSegs 0x3F00 k.eng1

/-- Ranges of the image that hold zero where nothing else is said. -/
def coreZeros : List (Nat × Nat) := [(0x3940, 0x3F00), (0x4B00, 0xF000)]

/-! ## What a restore takes from the image of a core

`k` is what the firmware keeps of the core: it gives what the image does not hold (a poison mark, the slot of a queued command, the
later records of a CPYN, the bundle of a wait). -/

/-- Entries of a queue, visible at v; an entry that the save left unchanged keeps its poison. -/
def readEntries (old : List Entry) (v : Nat) (vals : List V512) : List Entry :=
  vals.mapIdx (fun i d =>
    { id := i, due := v, data := some d,
      poison := (old[i]?).bind (fun e => if e.data == some d then e.poison else none) })

def readX (k : Core) (v : Nat) (im : List Byte) (base : Nat) (q : QName) : List (QName × List Entry) :=
  let vals := (List.range (min 4 (wordAt im base))).map (fun i => toV (BitVec.ofNat 64 (wordAt im (base + 8 + 8 * i))))
  if vals.isEmpty then [] else [(q, readEntries (k.seq.entries q) v vals)]

def readV (k : Core) (v : Nat) (im vs : List Byte) (n : Nat) : List (QName × List Entry) :=
  let cnt := min 2 ((im.getD (0x1FC0 + n) 0).toNat)
  let vals := (List.range cnt).map (fun i => BitVec.ofNat 512 (ofBytes ((vs.drop (128 * n + 64 * i)).take 64)))
  if cnt == 0 then [] else [(⟨.v, n⟩, readEntries (k.seq.entries ⟨.v, n⟩) v vals)]

def readQueues (k : Core) (v : Nat) (im vs : List Byte) : List (QName × List Entry) :=
  (List.range 64).flatMap (fun i => readX k v im (0x300 + 64 * i) ⟨.x, i⟩) ++
  (List.range 8).flatMap (fun i => readX k v im (0x1300 + 64 * i) ⟨.sh, 56 + i⟩) ++
  (List.range 1536).flatMap (readV k v im vs)

def readHolds (im : List Byte) (o : Nat) : List (Pos × Instr) :=
  (allPos.zipIdx).flatMap (fun p =>
    if wordAt im (o + 16 * p.2 + 8) % 2 == 0 then []
    else match decodeSlot .core p.1 (wordAt im (o + 16 * p.2)) with | .ok i => [(p.1, i)] | .error _ => [])

def readNums (im : List Byte) (o n : Nat) (f : Nat → Nat) : List Nat := (List.range n).map (fun i => f (wordAt im (o + 8 * i)))

def readPend (im : List Byte) : PendNest :=
  let h := wordAt im 0x1B0
  match h % 4 with
  | 0 => .empty
  | 1 =>
    let n := field h 8 8
    .slice ((List.range n).map (fun i => field h (16 + 8 * i) 8)) (readNums im 0x1B8 n (· % 2 ^ 32))
      (readNums im 0x1B8 n (· / 2 ^ 32)) (wordAt im 0x1E8)
  | _ =>
    .set ((List.range 6).flatMap (fun i =>
      let w := wordAt im (0x1B8 + 8 * i)
      if field w 40 1 == 0 then [] else [(i, field w 32 8, w % 2 ^ 32)]))

def readAct (im : List Byte) : Option ActNest :=
  let h := wordAt im 0x1F0
  let n := field h 8 8
  let r := wordAt im 0x1F8
  let be := wordAt im 0x230
  if h % 2 == 0 then none
  else
    some { start := be % 2 ^ 32, stop := be / 2 ^ 32, regs := (List.range n).map (fun i => field r (8 * i) 8),
           ext := readNums im 0x200 n (· % 2 ^ 32), idx := readNums im 0x200 n (· / 2 ^ 32), cnt := wordAt im 0x238,
           d0 := field h 16 16 }

def readStack (im : List Byte) : List Nat :=
  (List.range (min 16 (wordAt im 0x2C0))).map (fun i => ofBytes ((im.drop (0x280 + 4 * i)).take 4))

/-- A handle; one whose lease was recalled while the context was saved stays invalid (R340). -/
def readHandleAt (k : Core) (im : List Byte) (n : Nat) : Handle :=
  let o := 0x1500 + 32 * n
  let h := wordAt im o
  let x : Handle :=
    { valid := h % 2 == 1, cause := BitVec.ofNat 8 (h / 2 ^ 8), va := wordAt im (o + 8), pa := wordAt im (o + 16),
      large := field h 3 1 == 1, read := field h 1 1 == 1, write := field h 2 1 == 1 }
  let old := k.handle n
  if x.valid && !old.valid && old.cause == cLeaseRecalled && old.va == x.va then old else x

def readStreams (k : Core) (im : List Byte) : List (Nat × Stream) :=
  (List.range 32).flatMap (fun n =>
    match streamOf (wordAt im (0x1900 + 16 * n)) with
    | none => []
    | some g =>
      let g := { g with pos := wordAt im (0x1908 + 16 * n) }
      [(n, { g with poison := (look k.streams n).bind (fun o => if streamWord o == streamWord g then o.poison else none) })])

/-- A bell as its image has it. -/
def readBell (k : Core) (im : List Byte) (b : Nat) : BellSt :=
  let w := fun i => ofBytes ((im.drop (0x1B40 + 16 * b + 4 * i)).take 4)
  { gen := w 0, arrived := w 1 % 2 == 1, count := w 2, sent := w 3, excused := (k.bell b).excused, rung := (k.bell b).rung }

def readTensors (k : Core) (im : List Byte) : List (Nat × (V512 × Option Nat)) :=
  (List.range 16).map (fun n =>
    let d := BitVec.ofNat 512 (ofBytes ((im.drop (0x1BC0 + 64 * n)).take 64))
    let old := lookD k.descs n (0, none)
    (n, (d, if old.1 == d then old.2 else none)))

/-- A wait takes its request from the image where it is of the kind the image names. -/
def readWait (im : List Byte) (w : Wait) : Wait :=
  let a := wordAt im 0x08
  let cnd := wordAt im 0x18
  if field (wordAt im 0) 25 2 != waitKind (some w) then w
  else
    match w with
    | .waitv x =>
      .waitv { x with pa := a, data := BitVec.ofNat 512 (wordAt im 0x10), kind := .waitv (cnd % 256) (field cnd 8 1 == 1) }
    | .cwait _ src took dst eid pos slot => .cwait (BitVec.ofNat 16 a) src took dst eid pos slot
    | .twait _ src took pos => .twait (BitVec.ofNat 16 a) src took pos
    | .bwait _ bell => .bwait a bell
    | x => x

def readWaits (im : List Byte) (ws : List Wait) : List Wait :=
  if field (wordAt im 0) 24 1 == 0 then []
  else match ws with | [] => [] | w :: l => readWait im w :: l

/-! ### The matrix unit -/

def readRing (im : List Byte) (n : Nat) : Ring :=
  let o := 0x25C0 + 16 * n
  let w := wordAt im o
  let ht := wordAt im (o + 8)
  { conf := if w == 0 then none else some (ringOf (BitVec.ofNat 64 w)), head := ht % 2 ^ 32, tail := ht / 2 ^ 32 }

def readCmd (im : List Byte) (i : Nat) : List MCmd :=
  let o := 0x26C0 + 80 * i
  let h := wordAt im o
  let w := BitVec.ofNat 64 (wordAt im (o + 8))
  match h % 8 with
  | 1 => [.mcall (field h 10 8) (field h 18 3) (field h 21 3) ((List.range 8).map (fun j => BitVec.ofNat 64 (wordAt im (o + 8 + 8 * j))))]
  | 3 => [.mring (field h 10 3) w]
  | 5 => [.madv (field h 10 3) (h / 2 ^ 16)]
  | 7 => [.mdrain (field h 10 3) (BitVec.ofNat 2 (h / 2 ^ 13)) w]
  | _ => []

def readBank (on : Bool) (tile : Nat) : Option Bank := if on then some { tile := tile, ready := 0, bytes := none } else none

/-- The microsequencer from the words of an MCALL's cursor. -/
def readCursor (im : List Byte) : MSeq :=
  let w := fun i => wordAt im (0x2640 + 8 * i)
  let a := w 8
  let b := w 9
  let c := w 10
  let d := w 11
  let on := fun i => field a i 1 == 1
  let ls := [(field d 32 10, b % 2 ^ 32), (field d 42 10, b / 2 ^ 32)]
  { routine := field a 10 8, ra := field a 18 3, rb := field a 21 3, ks := (List.range 8).map (fun i => BitVec.ofNat 64 (w i)),
    pos := a % 2 ^ 10, loops := (ls.take (field a 46 2)).reverse, acur := wrap16 (field c 0 16), ccur := wrap16 (field c 16 16),
    ta := field c 32 16, tb := field c 48 16, touchA := on 24, touchB := on 25, modeA := on 36,
    scaleA := BitVec.ofNat 8 (a / 2 ^ 28), modeB := on 45, scaleB := BitVec.ofNat 8 (a / 2 ^ 37),
    bank0 := readBank (on 26) (field d 0 16), bank1 := readBank (on 27) (field d 16 16), wrEnd := 0 }

/-- The matrix unit before its timing restarts. A drain under way goes on from its cursor. -/
def readMatrix (x : Matrix) (im : List Byte) : Matrix :=
  let q := (List.range 8).flatMap (readCmd im)
  let call := wordAt im 0x26A0 % 2 == 1
  let q := match q with
    | .mdrain f rm w :: l =>
      let u := wordAt im 0x2640
      if u == 0 then .mdrain f rm w :: l
      else .mdrain (wordAt im 0x2648 % 8) (BitVec.ofNat 2 (wordAt im 0x2648 / 8)) (BitVec.ofNat 64 u) :: l
    | l => l
  { x with queue := q, rings := (List.range 8).map (fun n => (n, readRing im n)), running := call,
           mseq := if call then some (readCursor im) else none }

/-! ### The copy engines -/

/-- A command takes the words of its place. -/
def readRun (im : List Byte) (o : Nat) (r : CopyRun) : CopyRun :=
  let w := fun i => wordAt im (o + 8 * i)
  let ridx := field (w 16) 32 5
  let old := r.recs[ridx]?
  let x := recOf ((im.drop o).take 128)
  let x := { x with spa := if x.skind == 7 then w 19 else (old.map (·.spa)).getD 0,
                    dpa := if x.dkind == 7 then w 20 else (old.map (·.dpa)).getD 0 }
  { r with recs := r.recs.set ridx x, done := w 16 % 2 ^ 32, ridx := ridx, value := BitVec.ofNat 32 (w 17),
           status := field (w 17) 32 3, tag := BitVec.ofNat 16 (w 18), acq := field (w 18) 16 1 == 1,
           rel := field (w 18) 17 1 == 1, scope := field (w 18) 18 3 }

def readEngine (im : List Byte) (base : Nat) (x : CopyEngine) : CopyEngine :=
  { x with queue := (x.queue.zipIdx).flatMap (fun p =>
      if wordAt im (base + 192 * p.2 + 168) % 2 == 0 then [] else [readRun im (base + 192 * p.2) p.1]) }

/-! ### T-ops -/

def readTags (im : List Byte) : List (BitVec 16) :=
  (List.range (min 124 (wordAt im 0x3640))).map (fun i => BitVec.ofNat 16 (ofBytes ((im.drop (0x3648 + 2 * i)).take 2)))

/-- The status that the image keeps for a tag. -/
def readStatus (im : List Byte) (tag : BitVec 16) : Option Nat :=
  ((List.range 64).map (fun i => wordAt im (0x3740 + 8 * i))).findSome? (fun w =>
    if w / 2 ^ 63 % 2 == 1 && w % 2 ^ 16 == tag.toNat then some (field w 16 8) else none)

/-- The registers of a core from its image; `gens` are the generations of its peal (R97, R391). -/
def readCore (k : Core) (v : Nat) (gens : Nat → Nat) (im vs : List Byte) : Core :=
  let ctl := fun i => wordAt im (0x80 + 8 * i)
  let w0 := wordAt im 0
  let gone := (readTags im).any (fun t => !k.tops.contains t)
  let bells := (List.range 8).any (fun b => (readBell k im b).seen (gens b) != readBell k im b)
  let ui : W64 := BitVec.ofNat 64 (ctl 1) ||| (if gone then 2#64 else 0) ||| (if bells then 4#64 else 0)
  { k with
    seq := { k.seq with
             pos := w0 % 2 ^ 24
             nid := max 4 k.seq.nid
             queues := readQueues k v im vs
             preds := (List.range 15).map (fun n => (n + 1, BitVec.ofNat 64 (wordAt im (0x108 + 8 * n))))
             rstack := readStack im
             holds := readHolds im 0x20 }
    waits := readWaits im k.waits
    loops := (List.range 6).map (fun n => (n, BitVec.ofNat 32 (wordAt im (0x180 + 8 * n))))
    pendNest := readPend im
    actNest := readAct im
    handles := (List.range 32).map (fun n => (n, readHandleAt k im n))
    streams := readStreams k im
    kregs := (List.range 8).map (fun n => (n, BitVec.ofNat 64 (wordAt im (0x1B00 + 8 * n))))
    descs := readTensors k im
    uivec := BitVec.ofNat 24 (ctl 0)
    uistat := (if field w0 27 1 == 1 then ui ||| 16#64 else ui &&& ~~~16#64) &&& 31#64
    faultMask := BitVec.ofNat 6 (ctl 2)
    cause := BitVec.ofNat 48 (ctl 3)
    epc := BitVec.ofNat 24 (ctl 4)
    frzCnt := ctl 5
    lateFrz := ctl 6
    qUnder := ctl 7
    spillBase := ctl 8 % 2 ^ 19
    spillOvf := ctl 9 % 2 ^ 56
    handlerDepth := ctl 10
    quiet := if field w0 28 1 == 1 then some (field w0 29 9) else none
    savedHolds := if field w0 27 1 == 1 then readHolds im 0x3A00 else []
    bells := (List.range 8).map (fun b => (b, (readBell k im b).seen (gens b)))
    mx := readMatrix k.mx im
    eng0 := readEngine im 0x2A40 k.eng0
    eng1 := readEngine im 0x3F00 k.eng1
    tops := (readTags im).filter k.tops.contains
    reports := k.reports.map (fun r => { r with status := (readStatus im r.tag).getD r.status }) }

end Sys2Proof.Machine
end

