-- ==== Sys2Proof/Machine/Context.lean ====
section
/-! DEFINITION. Pre-emption: the stop request, the save of a spire and the resumed LAUNCH (R325, R387 to R391). -/

namespace Sys2Proof.Machine

/-! ## Writing the context area (R389) -/

/-- Bytes that the spec leaves open. -/
def freeBytes (n : Nat) (s : State) : List Byte × State :=
  ((List.range n).map (fun i => (Config.freeBits (s.free + i)).setWidth 8), { s with free := s.free + n })

/-- The byte of a list of segments at an offset. -/
def segAt (segs : List (Nat × List Byte)) (i : Nat) : Option Byte :=
  (segs.find? (fun x => x.1 ≤ i && i < x.1 + x.2.length)).map (fun x => x.2.getD (i - x.1) 0)

/-- n bytes of an image: its segments, the ranges that hold zero, and open bytes elsewhere. -/
def fillImage (segs : List (Nat × List Byte)) (zero : List (Nat × Nat)) (n : Nat) (s : State) : List Byte × State :=
  let fr := freeBytes n s
  (fr.1.mapIdx (fun i b =>
    match segAt segs i with
    | some x => x
    | none => if zero.any (fun z => z.1 ≤ i && i < z.2) then 0 else b), fr.2)

/-- The image of a core, piece by piece: registers, FMEM, vector entries, CMEM, AMEM, WMEM. -/
def coreImage (s : State) (c : Nat) (va : Nat) : List (Nat × List Byte) × State :=
  let k := s.core c
  let w := k.waits.head?
  let regs := fillImage (coreSegs k w) coreZeros 0xF000 s
  let vecs := fillImage (parts 0 128 1536 (vImage k)) [] 196608 regs.2
  let mem := fun sp => s.mem.read (localBase c sp) (spSize sp)
  ([(va, regs.1), (va + 0xF000, mem 0), (va + 0x10000, vecs.1), (va + 0x40000, mem 3), (va + 0x80000, mem 1),
    (va + 0x100000, mem 2)], vecs.2)

/-- The launch header. -/
def headerImage (L : Launch) (vcc : Nat) (s : State) : List Byte × State :=
  let segs : List (Nat × List Byte) :=
    [(0, toBytes L.image.id.toNat 8),
     (8, numbers 2 [L.cmd.base, L.cmd.gx, L.cmd.gy, if L.detMode then 1 else 0]),
     (16, toBytes vcc 8),
     (24, gridHash L.cores),
     (64, pealImage L)]
  fillImage segs [(32832, 65536)] 65536 s

def coreVa (ctx c : Nat) : Nat := ctx + 2 ^ 16 + c * 2 ^ 21
def clmVa (ctx P i : Nat) : Nat := ctx + 2 ^ 16 + P * 2 ^ 21 + 2 ^ 22 * i
def areaSize (P n : Nat) : Nat := 2 ^ 16 + P * 2 ^ 21 + 2 ^ 22 * n

/-- The CLMs of a launch with the addresses of their images. -/
def clmImages (ctx : Nat) (L : Launch) : List (Nat × Nat) :=
  (clustersOf L.cores).mapIdx (fun i cl => (cl, clmVa ctx L.cores.length i))

/-! ## PREEMPT (R325, R387) -/

/-- A stop request reaches a core of launch n. -/
def askSave (n at_ : Nat) (x : Nat × Core) : Nat × Core :=
  if x.2.launch == some n && x.2.mode != .free then (x.1, { x.2 with stopReq := true, stopAt := at_ }) else x

def stopLaunch (n : Nat) (L : Launch) (s : State) : State :=
  let at_ := if L.detMode then groupVcc s (.launch n) + L.lead else 0
  { s with cores := s.cores.map (askSave n at_) }

/-- PREEMPT: a launch that is not running, has no context area or has lantern programs is no target; another is asked to
stop, and CONTEXT_SAVE completes both commands. -/
def preemptCommand (h : CmdHdr) (f : PreemptCmd) (s : State) : State :=
  whenRunning h s (fun r =>
    if r.begun then s
    else
      match s.launches.find? (fun x => x.2.hdr.q == f.queue && x.2.hdr.slot == f.slot) with
      | none => complete h 12 0 s
      | some (n, L) =>
        if L.preempt.isSome then s
        else if L.cmd.ctx == 0 || !L.pairsLeft.isEmpty then complete h 12 0 s
        else
          match vaPieces s true true 65536 L.cmd.ctx (areaSize L.cores.length (clustersOf L.cores).length) with
          | .wait => s
          | .bad _ => complete h 12 0 s
          | .ok _ =>
            let s := s.modRun h.q h.slot (fun r => { r with begun := true })
            stopLaunch n L (s.modLaunch n (fun L => { L with preempt := some (h.q, h.slot) })))
def execPreempt (h : CmdHdr) (f : PreemptCmd) (s : State) : Out := .next (preemptCommand h f s)

/-! ## CONTEXT_SAVE (R388 to R390) -/

def spiresOf (L : Launch) : List Nat := (L.cores.map (· / 64)).eraseDups

/-- The cores of a launch that still run in a spire. -/
def spireCores (L : Launch) (sp : Nat) : List Nat := L.active.filter (fun c => c / 64 == sp)

def stopped (k : Core) : Bool := match k.mode with | .stop true => true | _ => false

def saveReady (s : State) (L : Launch) (sp : Nat) : Bool :=
  L.preempt.isSome && L.ending.isNone && (spiresOf L).contains sp && !L.saved.contains sp &&
    (spireCores L sp).all (fun c => stopped (s.core c))

/-- The images of a list of cores. -/
def coreImages (ctx : Nat) : List Nat → State → List (Nat × List Byte) × State
  | [], s => ([], s)
  | c :: l, s =>
    let a := coreImage s c (coreVa ctx (s.core c).logIdx)
    let b := coreImages ctx l a.2
    (a.1 ++ b.1, b.2)

/-- Writes pieces in order; each is written whole or not at all. -/
def writeAll (s : State) (q slot : Nat) : List (Nat × List Byte) → State → FirmPut
  | [], s' => .ok s'
  | (va, bs) :: l, s' =>
    match firmWrite s' q slot va bs with
    | .ok s'' => writeAll s q slot l s''
    | r => r

/-- The group VCC at the stop, with the spires saved before. -/
def stopVcc (s : State) (L : Launch) (old : Option SavedCtx) (cores : List Nat) : Nat :=
  cores.foldl (fun v c => max v (s.core c).seq.vcc) (if L.saved.isEmpty then 0 else (old.map (·.vcc)).getD 0)

/-- Units of the scratchpads of cores that stay uncorrectable. -/
def coreBad (s : State) (cores : List Nat) : List Nat :=
  s.bad.filter (fun u => cores.any (fun c => localBase c 0 ≤ u && u < localBase c 0 + 2 ^ 22))

/-- What the firmware keeps once these cores are saved. -/
def keepCtx (s : State) (n : Nat) (L : Launch) (old : Option SavedCtx) (cores : List Nat) : SavedCtx :=
  let before := if L.saved.isEmpty then [] else (old.map (·.cores)).getD []
  let marks := if L.saved.isEmpty then [] else (old.map (·.bad)).getD []
  let all := before ++ cores.map (fun c => (c, s.core c))
  { num := n
    launch := { L with active := all.map (·.1) }
    vcc := stopVcc s L old cores
    cores := all
    bad := marks ++ coreBad s cores }

/-- Saved cores are free: their scratchpads are cleared (R176). -/
def freeSaved (cores : List Nat) (s : State) : State :=
  cores.foldl (fun s c => (clearScratch c s).modCore c freedCore) s

/-- CONTEXT_SAVE: a spire's images are written once its cores have stopped. The last spire completes the launch with PREEMPTED
and the PREEMPT with OK. -/
def contextSave (n sp : Nat) (s : State) : State :=
  match s.launchOf n with
  | none => s
  | some L =>
    if !saveReady s L sp then s
    else
      let cores := spireCores L sp
      let ctx := L.cmd.ctx
      let old := look s.contexts ctx
      let kept := keepCtx s n L old cores
      let hd := headerImage L kept.vcc s
      let im := coreImages ctx cores hd.2
      let clms := ((clmImages ctx L).filter (fun x => x.1 / 8 == sp)).map (fun x => (x.2, s.mem.read (clmBase x.1) (2 ^ 22)))
      match writeAll s L.hdr.q L.hdr.slot ((ctx, hd.1) :: im.1 ++ clms) im.2 with
      | .wait s' => s'
      | .bad s' => s'
      | .ok s' =>
        let s' := freeSaved cores { s' with contexts := put s'.contexts ctx kept }
        let s' := s'.modLaunch n (fun L =>
          { L with active := L.active.filter (fun c => !cores.contains c), saved := L.saved ++ [sp] })
        if (spiresOf L).all (fun x => x == sp || L.saved.contains x) then endPreempt L 0 (retireLaunch n L 8 0 s') else s'
def execContextSave (n : Nat) (sp : Nat) (s : State) : Out := .next (contextSave n sp s)

/-! ## LAUNCH with resume = 1 (R391) -/

/-- What a series of reads ends in. -/
inductive ReadsGot where
  | ok (l : List (Nat × List Byte))
  | wait
  | bad (va n : Nat)

/-- Reads pieces: where each goes, its virtual address and size. -/
def readAll (s : State) : List (Nat × Nat × Nat) → ReadsGot
  | [] => .ok []
  | (toPa, va, n) :: l =>
    match firmRead s va n with
    | .wait => .wait
    | .bad _ => .bad va n
    | .ok bs => (match readAll s l with | .ok r => .ok ((toPa, bs) :: r) | r => r)

/-- The memories of a core image. -/
def memReads (ctx c li : Nat) : List (Nat × Nat × Nat) :=
  let va := coreVa ctx li
  [(localBase c 0, va + 0xF000, 4096), (localBase c 3, va + 0x40000, 262144), (localBase c 1, va + 0x80000, 524288),
   (localBase c 2, va + 0x100000, 1048576)]

def ctxReads (ctx : Nat) (x : SavedCtx) : List (Nat × Nat × Nat) :=
  x.cores.flatMap (fun c => memReads ctx c.1 c.2.logIdx) ++ (clmImages ctx x.launch).map (fun y => (clmBase y.1, y.2, 2 ^ 22))

/-- The register areas and the vector entries of the cores. -/
def regReads (ctx : Nat) (x : SavedCtx) : List (Nat × Nat × Nat) := x.cores.map (fun c => (c.1, coreVa ctx c.2.logIdx, 0xF000))
def vecReads (ctx : Nat) (x : SavedCtx) : List (Nat × Nat × Nat) :=
  x.cores.map (fun c => (c.1, coreVa ctx c.2.logIdx + 0x10000, 196608))

/-- Time of the rest of a copy command. -/
def leftTime (s : State) (c : Nat) (r : CopyRun) : Nat :=
  ((r.recs.drop r.ridx).mapIdx (fun i x => recTime s c x (if i == 0 then r.done else 0))).foldl (· + ·) 0

/-- New deadlines at a restore, computed as at acceptance (R250). -/
def redeadline (s : State) (c v : Nat) : Nat → List CopyRun → List CopyRun
  | _, [] => []
  | last, r :: l =>
    let d := if r.finished then v else max v last + 8 + leftTime s c r
    { r with deadline := d } :: redeadline s c v d l

def restoreEngine (s : State) (c v : Nat) (x : CopyEngine) : CopyEngine :=
  let q := redeadline s c v 0 x.queue
  { x with queue := q, lastDeadline := (q.getLast?.map (·.deadline)).getD 0 }

/-- A bank is loaded again from its recorded tile (R172). -/
def reloadBank (from_ cost : Nat) (b : Option Bank) : Option Bank :=
  b.map (fun x => { x with ready := from_ + cost, bytes := none })

/-- The matrix unit at a restore: it reloads its banks, then goes on (R172). -/
def restoreMatrix (v : Nat) (x : Matrix) : Matrix :=
  let base := { x with freeAt := v, fetAt := v, loadFrom := v, loadEnd := v, rows := none, writes := [] }
  match x.mseq with
  | none => base
  | some m =>
    let cost := match (ringAt x m.rb).conf with | some r => (tileBytes r.fmt r.trows + 255) / 256 | none => 0
    let t0 := if m.bank0.isSome then v + cost else v
    let m' := { m with bank0 := reloadBank v cost m.bank0, bank1 := reloadBank t0 cost m.bank1, wrEnd := 0 }
    let t1 := if m.bank1.isSome then t0 + cost else t0
    { base with mseq := some m', freeAt := t1, fetAt := t1, loadEnd := t1 }

/-- A core at a restore: its registers from its image, the rest from what the firmware keeps, what stays with the physical core,
its code and dictionary among it (R95), and a mark at its first bundle. The governor's window and the fault record are those of a
dispatch (R371, R377). -/
def restoreCore (s : State) (f : LaunchCmd) (r : Ready) (x : SavedCtx) (c : Nat) (im vs : List Byte) (kept old : Core) : Core :=
  let v := if x.launch.detMode then x.vcc else kept.seq.vcc
  let k := readCore kept v (fun b => (x.launch.bell b).gen) im vs
  loadCode r.img { k with
    launch := some x.num
    seq := { k.seq with vcc := v, nextAt := v, pend := [] }
    ovfPages := r.ovf.filter (fun g => g.1 / 256 == ovfBase f k.logIdx / 2 ^ 24)
    pwrLim := pwrLimAt s.fw.power
    window := []
    nowW := 0
    pfAt := []
    pfDone := false
    frec := FRec.none
    ceCnt := old.ceCnt
    ueCnt := old.ueCnt
    ftoCnt := old.ftoCnt
    tlb := old.tlb
    injCtl := old.injCtl
    injStat := old.injStat
    injFrom := old.injFrom
    snap := none
    noLeaf := []
    eng0 := restoreEngine s c v k.eng0
    eng1 := restoreEngine s c v k.eng1
    mx := restoreMatrix v k.mx
    stopReq := false
    stopHeld := false
    stopAt := 0
    markNext := true } old

/-- The launch of a restore: as it was saved, under its new command. -/
def restoreLaunch (h : CmdHdr) (f : LaunchCmd) (r : Ready) (x : SavedCtx) : Launch :=
  let homes := if x.launch.detMode then replicaSet r [] else []
  { x.launch with
    hdr := h
    cmd := f
    lead := if x.launch.detMode then leadFor r.grid homes else 0
    replicas := homes
    released := false
    ending := none
    preempt := none
    saved := []
    pfAsk := [] }

/-- The bytes of an area that a restore reads: memories, register areas, vector entries. -/
structure AreaBytes where
  mems : List (Nat × List Byte)
  regs : List (Nat × List Byte)
  vecs : List (Nat × List Byte)

/-- What reading an area ends in. -/
inductive AreaGot where
  | ok (a : AreaBytes)
  | wait
  | bad (va n : Nat)

def readArea (s : State) (ctx : Nat) (x : SavedCtx) : AreaGot :=
  match readAll s (ctxReads ctx x), readAll s (regReads ctx x), readAll s (vecReads ctx x) with
  | .ok m, .ok r, .ok v => .ok { mems := m, regs := r, vecs := v }
  | .bad va n, _, _ => .bad va n
  | _, .bad va n, _ => .bad va n
  | _, _, .bad va n => .bad va n
  | _, _, _ => .wait

/-- Every image is written back, and a watch over its bytes sees the write (R231); DISPATCH_RELEASE then lets the members go on. -/
def restore (h : CmdHdr) (f : LaunchCmd) (r : Ready) (x : SavedCtx) (a : AreaBytes) (s : State) : State :=
  let s := if f.det then (clustersOf r.grid).foldl (fun s cl => pinIn r.leaves cl s) s else s
  let inside := fun u => a.mems.any (fun y => y.1 ≤ u && u < y.1 + y.2.length)
  let s := { s with
    mem := a.mems.foldl (fun (m : Memory) (y : Nat × List Byte) => Memory.write m y.1 y.2) s.mem
    bad := s.bad.filter (fun u => !inside u) ++ x.bad }
  let s := a.mems.foldl (fun s y => fireWatches s y.1 y.2.length none) s
  let s := x.cores.foldl (fun s y =>
    s.setCore y.1 (restoreCore s f r x y.1 (lookD a.regs y.1 []) (lookD a.vecs y.1 []) y.2 (s.core y.1))) s
  { s with launches := put s.launches x.num (restoreLaunch h f r x) }

/-- LAUNCH with resume = 1: the checks of a LAUNCH, with the mapping held against the context (R318, R391). -/
def resumeCommand (h : CmdHdr) (f : LaunchCmd) (s : State) : State :=
  whenRunning h s (fun run =>
    if run.begun || s.fw.patchHeld.isSome || hashWaits s f.ctx then s
    else
      match checkLaunch s f with
      | .wait s' => s'
      | .bad st d => complete h st (BitVec.ofNat 64 d) (refusalNoted s f st d)
      | .ok r =>
        match look s.contexts f.ctx with
        | none => complete h 2 0 s
        | some x =>
          if gridBusy s r.grid then s
          else if x.launch.image.id != r.img.id || x.launch.detMode != f.det then completeOpen h s
          else
            match readArea s f.ctx x with
            | .wait => s
            | .bad va n => completeOpen h (readNoted s va n)
            | .ok a => (restore h f r x a s).modRun h.q h.slot (fun y => { y with begun := true }))
def execLaunchResume (h : CmdHdr) (f : LaunchCmd) (s : State) : Out := .next (resumeCommand h f s)

end Sys2Proof.Machine
end

