-- ==== Sys2Proof/Machine/Fabric.lean ====
section
/-! DEFINITION. Writes abandoned at a dome (R205), requests of peers (R403), the loss and the return of a link (R402, R404),
uncorrectable errors (R63, R169, R182, R198), cores retired (R330), and the resets of dies and routers (R392, R393). -/

namespace Sys2Proof.Machine

/-! ## HELD_WRITE_ABANDON (R205) -/

/-- The error reply of an abandoned access. -/
def abandonAccess (id : Nat) (s : State) : State :=
  match s.reqs.find? (fun x => x.id == id) with
  | none => s
  | some x =>
    let a := agentOf x.src
    let s := { s with reqs := s.reqs.filter (fun y => y.id != id)
                      reps := s.reps ++ [{ replyOf x 0 true 0 with abandoned := true }] }
    s.setOut a ((s.outOf a).filter (fun y => y.id != id))

/-- The command whose write it is ends with status 5 (R246); a write that has left its engine goes, and its block keeps its old
contents (R205). -/
def abandonCopy (c e : Nat) (s : State) : State :=
  match (s.eng c e).left, (s.eng c e).queue with
  | o :: _, _ => leftGone c e o 5 s
  | [], r :: _ => endRun s c e r 5
  | [], [] => s

/-- A tile, or the result of a collective, ends ABANDONED (R278). -/
def abandonTop (n k : Nat) (s : State) : State :=
  match look s.tops n with
  | none => s
  | some t =>
    if isCollective t.op then
      leaveQueue n t <| putTop s n { t with stage := .done, fails := [{ startFail 2 cFreezeTimeout 0 t.home 0 with tile := k }], nfail := 1 }
    else if (look t.claimed k).isSome then abandonTile n k s
    else s

/-- A command whose write is abandoned: a COPY ends with COPYERR; a header that cannot be committed leaves its queue unserved;
a save is tried again; any other command's status is open. -/
def abandonCommand (q slot : Nat) (s : State) : State :=
  match s.runOf q slot with
  | some r =>
    (match r.instr with
     | .copy h _ => copyErr h 5 s
     | .launch .. => s
     | .launchResume .. => s
     | _ => completeOpen r.hdr s)
  | none => if (s.queue q).rdptr == slot then queueBad s q ((s.queue q).leader.getD 0) else s

/-- The writer of an abandoned write receives an error. -/
def abandonWriter (w : Writer) (s : State) : State :=
  match w with
  | .access id => abandonAccess id s
  | .copy c e => abandonCopy c e s
  | .tile n k => abandonTop n k s
  | .firm a => if s.fw.attJobs.head?.any (fun v => v.toNat == a) then attOver 0 s else s
  | .command q slot => abandonCommand q slot s

/-- What a dome holds too long (R205). -/
def abandonDue (s : State) (k : Dome) : Bool := k.held.any (fun h => h.since + 800000 ≤ s.now)

/-- HELD_WRITE_ABANDON: a write still held 800,000 cycles after it was held goes. -/
def heldAbandon (d : Nat) (s : State) : State :=
  match (s.dome d).held.find? (fun h => h.since + 800000 ≤ s.now) with
  | none => s
  | some h =>
    abandonWriter h.who (s.modDome d (fun k => { k with held := k.held.filter (fun x => x != h), abandons := k.abandons + 1 }))
def execHeldWriteAbandon (d : Nat) (s : State) : Out := .next (heldAbandon d s)

/-! ## PEER_REQUEST (R403) -/

def peerReply (k : Nat) (r : Option (List Byte)) (s : State) : State := { s with peerReps := s.peerReps ++ [(k, r)] }

/-- The panel's agent code of a peer in an access count: host (R374 gives peers none). -/
def whoPeer (k kind : Nat) : Who := { kind := kind, idx := k, spire := none }

/-- An access of a peer, whose own homes are dome memory alone. One that its home makes wait stands there as a request. -/
def peerRead (k pa n : Nat) (s : State) : State :=
  if paClass pa != 0 then peerReply k none s
  else
    match homeRead s (whoPeer k 4) pa n with
    | .ok bs po s' => peerReply k (if po then none else some bs) s'
    | .err s' => peerReply k none s'
    | .wait => outsideReq (.peer k) .load pa n 0 0 s

def peerWrite (k pa : Nat) (bs : List Byte) (s : State) : State :=
  if paClass pa != 0 then peerReply k none s
  else
    match homeWrite s (whoPeer k 4) (.access s.nextId) pa bs false with
    | .ok s' => peerReply k (some []) s'
    | .err s' => peerReply k none s'
    | .wait s' => outsideReq (.peer k) .store pa bs.length (BitVec.ofNat 512 (ofBytes bs)) 0 s'

/-- An atomic of a peer: f gives the new value, none where nothing is written. -/
def peerAtomic (k pa n : Nat) (kind : AccKind) (v : V512) (cmp : W64) (f : Nat → Option Nat) (s : State) : State :=
  if paClass pa != 0 then peerReply k none s
  else
    match homeRead s (whoPeer k 5) pa n with
    | .err s' => peerReply k none s'
    | .wait => outsideReq (.peer k) kind pa n v cmp s
    | .ok bs po s' =>
      if po then peerReply k none s'
      else
        match f (ofBytes bs) with
        | none => peerReply k (some bs) s'
        | some v' =>
          match homeWrite s (whoPeer k 5) (.access s.nextId) pa (toBytes v' n) false with
          | .ok s'' => peerReply k (some bs) s''
          | .err s'' => peerReply k none s''
          | .wait s'' => outsideReq (.peer k) kind pa n v cmp s''

/-- The watch of a peer's WAITV. -/
def peerWatch (k pa cond : Nat) (wide : Bool) (v : W64) (id : Nat) : Access :=
  { id := id, src := .peer k, slot := .ca, kind := .waitv cond wide, pa := pa, size := if wide then 8 else 4, data := v.setWidth 512,
    cmp := 0, land := .none, at_ := 0, ser := 0, release := false, acquire := false, scope := 4, path := 0, bound := 0, lat := 0,
    late := 0, stamp := 0, retry := false }

/-- A peer's WAITV: answered, watched, or told to come again where the home holds no more watches. -/
def peerWait (k pa cond : Nat) (wide : Bool) (v : W64) (s : State) : State :=
  if paClass pa != 0 then peerReply k none s
  else
    let a := s.freshId
    let x := peerWatch k pa cond wide v a.1
    match homeRead s (whoPeer k 4) pa x.size with
    | .err s' => peerReply k none s'
    | .wait => outsideReq (.peer k) x.kind pa x.size x.data 0 s
    | .ok _ po s' =>
      if po then peerReply k none s'
      else if waitMet s'.mem x then peerReply k (some []) s'
      else if watchCap pa ≤ (s'.watchesAt pa).length then s
      else
        let s'' : State := { s' with nextId := a.2.nextId }
        s''.setWatches pa (s'.watchesAt pa ++ [{ acc := x }])

/-- A peer's fill takes a lease of the page (R339, R403). Its leases stand under numbers from 1024 on. -/
def peerLease (k pa : Nat) (s : State) : State :=
  let pg := pa / 65536 * 65536
  if paClass pa != 0 || !s.pageOk pg false then peerReply k none s
  else if recallOver s pg then s
  else if 32768 ≤ (s.dome (domeOf pg)).leases.length then
    (match (s.dome (domeOf pg)).leases.find? (fun x => !x.pinned) with
     | some v => evictLease v s
     | none => s)
  else peerReply k (some []) (grantLease s pg false (1024 + k) false)

/-- A peer recalls one of its own pages, which clusters here hold under its leases (R340, R403): the page is named as it lies there. -/
def peerRecall (k pa : Nat) (large : Bool) (s : State) : State :=
  let pg := 0xE000000000000 + k % 16 * 2 ^ 44 + pa % 2 ^ 44 / pageSize large * pageSize large
  let hs := holdersOf s pg large
  if s.recalls.any (fun r => r.page == pg) then
    { s with recalls := s.recalls.map (fun r =>
        if r.page == pg then { r with holders := (r.holders ++ hs).eraseDups, peer := true } else r) }
  else { s with recalls := s.recalls ++ [{ page := pg, large := large, holders := hs, peer := true }] }

/-- A fill of a page at a peer's home waits for its lease. -/
def fillAt (s : State) (k pa : Nat) : Bool :=
  s.cores.any (fun x => x.2.fills.any (fun f => (s.walk f.va).any (fun l => paClass l.pa == 14 && peerSlot l.pa == k && inPage l.pa l.large
    (0xE000000000000 + k % 16 * 2 ^ 44 + pa % 2 ^ 44))))

/-- The peer refuses a lease that a fill here has asked for: FABRIC is posted with reason 3 (R410), and the fill asks again (DESIGN
CHOICE: the spec gives it no other end). -/
def leaseRefused (k pa : Nat) (s : State) : State := if fillAt s k pa then postNote s (fabricNote k 3 0) else s

def peerRequest (r : PeerReq) (s : State) : State :=
  match r with
  | .read k pa n => peerRead k pa n s
  | .write k pa bs => peerWrite k pa bs s
  | .atomic k pa op wide v cmp =>
    let n := if wide then 8 else 4
    let w := 8 * n
    peerAtomic k pa n (.atomic op wide) (v.setWidth 512) cmp (fun old => atomNew op w old (v.toNat % 2 ^ w) (cmp.toNat % 2 ^ w)) s
  | .swapv k pa v => peerAtomic k pa 64 .swapv v 0 (fun _ => some v.toNat) s
  | .waitv k pa cond wide v => peerWait k pa cond wide v s
  | .lease k pa _ => peerLease k pa s
  | .recall k pa large => peerRecall k pa large s
  | .refuse k pa => leaseRefused k pa s
def execPeerRequest (q : PeerReq) (s : State) : Out := .next (peerRequest q s)

/-! ## The loss and the return of a link (R404) -/

def ofSlot (k pa : Nat) : Bool := paClass pa == 14 && peerSlot pa == k

/-- Peer pages of a slot that the panel's tables hold, those of saved contexts among them, with their sizes. -/
def slotPages (k : Nat) (s : State) : List (Nat × Bool) :=
  let tlb := fun l : List TlbEntry => (l.filter (fun e => ofSlot k e.pa)).map (fun e => (e.pa, e.large))
  let hs := fun l : List (Nat × Handle) => (l.filter (fun x => x.2.valid && ofSlot k x.2.pa)).map (fun x => (x.2.pa, x.2.large))
  (s.clusters.flatMap (fun x => tlb x.2.tlb) ++ (s.cores ++ s.contexts.flatMap (·.2.cores)).flatMap (fun x =>
    tlb x.2.tlb ++ hs x.2.handles ++ (x.2.snap.map (fun y => hs y.handles)).getD [] ++
      x.2.seq.pend.flatMap (fun w => match w.wr with | .handle n h => hs [(n, h)] | _ => []) ++
      (x.2.eng0.queue ++ x.2.eng1.queue).flatMap (fun r => (r.pages.filter (ofSlot k)).map (fun p => (p, false))))).eraseDups

/-- Clears a page in every cluster. -/
def clearEverywhere (s : State) (x : Nat × Bool) : State := (List.range 1024).foldl (fun s cl => clearPage x.1 x.2 cl s) s

/-- An access in flight through the port receives an error response. -/
def errorReply (s : State) (x : Access) : State := answer s x 0 true 0

/-- The watches at the peer end in error responses, and those of the peer here end. -/
def dropWatches (k : Nat) (s : State) : State :=
  let far := s.cluster (1024 + k)
  let s := (far.watches.map (·.acc)).foldl errorReply (s.setCluster (1024 + k) { far with watches := [] })
  let mine := fun l : List Watch => l.filter (fun h => h.acc.src != .peer k)
  { s with domes := s.domes.map (fun x => (x.1, { x.2 with watches := mine x.2.watches })) }

/-- Leases that the peer held here are gone, and those held there: each side recalls them on its own. -/
def dropLeases (k : Nat) (s : State) : State :=
  { s with
    domes := s.domes.map (fun x => (x.1, { x.2 with leases := x.2.leases.filter (fun l => l.cluster != 1024 + k) }))
    recalls := s.recalls.map (fun r => { r with holders := r.holders.filter (· != 1024 + k) })
    peerLeases := s.peerLeases.filter (fun l => !ofSlot k l.page) }

/-- CHIMELINK_LINK_LOSS: leases are recalled on each side, FABRIC is posted with reason 2, and accesses through the port
receive error responses. -/
def linkLoss (k : Nat) (s : State) : State :=
  if !lookD s.fw.portUp k false then s
  else
    let s := { s with fw := { s.fw with portUp := put s.fw.portUp k false } }
    let s := (slotPages k s).foldl clearEverywhere s
    let s := dropLeases k (dropWatches k s)
    let s := (s.reqs.filter (fun x => ofSlot k x.pa)).foldl errorReply s
    let s := { s with reqs := s.reqs.filter (fun x => x.src != .peer k), reps := s.reps.filter (fun r => r.acc.src != .peer k) }
    postNote s (fabricNote k 2 0)
def execChimelinkLinkLoss (k : Nat) (s : State) : Out := .next (linkLoss k s)

/-- CHIMELINK_LINK_RETURN: accesses through the port are carried again, and its steps are numbered from 0 (R406). -/
def linkReturn (k : Nat) (s : State) : State :=
  if lookD s.fw.portUp k false || lookD s.fw.ports k .none == .none then s
  else { s with fw := { s.fw with portUp := put s.fw.portUp k true, portStep := put s.fw.portStep k 0 } }
def execChimelinkLinkReturn (k : Nat) (s : State) : Out := .next (linkReturn k s)

/-! ## UNCORRECTABLE_ECC_ERROR -/

/-- A unit of a memory that keeps marks turns uncorrectable. -/
def markBad (s : State) (u : Nat) : State :=
  let a := u / unitSize u * unitSize u
  if s.bad.contains a then s else { s with bad := s.bad ++ [a] }

/-- A dome block that stores a sector turns poisoned; a CLM or local unit, or a dictionary entry, uncorrectable. A zero block
stores nothing. -/
def eccError (u : EccSite) (s : State) : State :=
  match u with
  | .phys pa =>
    if paClass pa == 0 then
      (if homeKnown s pa 1 && !s.donatedAt pa && !s.poisoned pa && ((s.dome (domeOf pa)).block (blockOf pa)).s != 0 then
         { s with poison := s.poison ++ [pa / 256 * 256] }
       else s)
    else if paClass pa == 8 && homeKnown s pa 1 then markBad s pa
    else s
  | .scratch c sp off => if off < spSize sp then markBad s (localBase c sp + off) else s
  | .dict c e =>
    if e < (s.core c).seq.dict.length && !(s.core c).badDict.contains e then
      s.modCore c (fun k => { k with badDict := k.badDict ++ [e] })
    else s
  | .lantern p off => if off < 65536 then markBad s (lanternBase p + off) else s
def execUncorrectableEccError (u : EccSite) (s : State) : Out := .next (eccError u s)

/-! ## CORE_RETIREMENT (R330) -/

def clearLive (l : List (Nat × W64)) (sp q : Nat) : List (Nat × W64) :=
  put l sp (lookD l sp 0 &&& ~~~(BitVec.ofNat 64 (2 ^ q)))

/-- A failed lantern pair leaves the live map; the spec gives its change no record (R344; DESIGN CHOICE: none is posted). -/
def retirePair (p : Nat) (s : State) : State :=
  if !s.launches.isEmpty || !(s.livePairs (p / 64)).contains (p % 64) then s
  else { s with fw := { s.fw with liveLant := clearLive s.fw.liveLant (p / 64) (p % 64) } }

/-- Between launches, a failed core leaves the live map, and the change is posted. Numbers from 8192 on name lantern pairs. -/
def retireCore (c : Nat) (s : State) : State :=
  if 8192 ≤ c then retirePair (c - 8192) s
  else if !s.launches.isEmpty || !(s.liveCores (c / 64)).contains c then s
  else
    postNote { s with fw := { s.fw with liveCore := clearLive s.fw.liveCore (c / 64) (c % 64) } }
      { code := 2, source := 1, index := c / 64, w0 := BitVec.ofNat 64 c, w1 := 0 }
def execCoreRetirement (c : Nat) (s : State) : Out := .next (retireCore c s)

/-! ## SPIRE_DIE_RESET (R392, R368) -/

def spireRange (sp : Nat) : List Nat := (List.range 64).map (fun i => sp * 64 + i)

/-- The launches that hold a core of the spire end TRAPPED, with cause 0 and the spire's lowest core. -/
def endLaunches (sp : Nat) (s : State) : State :=
  s.launches.foldl (fun s x =>
    if x.2.active.any (fun c => c / 64 == sp) then endLaunch x.1 { status := 6, detail := BitVec.ofNat 64 (sp * 64) } s else s) s

/-- Everything of a core that is under way goes with its die. -/
def dropCore (c : Nat) (s : State) : State :=
  let mine := fun x : Access => x.src != .core c
  let watch := fun l : List Watch => l.filter (fun h => mine h.acc)
  let gone := (s.reqs.filter (fun x => x.src == .core c)).map (·.id)
  let keep := fun l : List HeldWrite => l.filter (fun h =>
    match h.who with
    | .access id => !gone.contains id
    | .copy d _ => d != c
    | _ => true)
  { s with
    reqs := s.reqs.filter mine
    reps := s.reps.filter (fun r => mine r.acc)
    domes := s.domes.map (fun x => (x.1, { x.2 with watches := watch x.2.watches, held := keep x.2.held, want := keep x.2.want }))
    clusters := s.clusters.map (fun x => (x.1, { x.2 with watches := watch x.2.watches }))
    freezes := s.freezes.filter (fun f => f.group != .core c) }

/-- A core after the reset of its die: as from bring-up, but for its fault record, which its next dispatch clears (R395). -/
def resetCore (s : State) (c : Nat) : State :=
  let l := (s.core c).launch
  let s := excuseAll c s
  let s := dropCore c s
  let s := s.setCore c { Core.fresh with frec := (s.core c).frec }
  match l with
  | some n => s.modLaunch n (fun L => { L with active := L.active.filter (· != c) })
  | none => s

/-- T-ops of the die's cores have no issuer to report to. -/
def orphanTops (sp : Nat) (s : State) : State :=
  { s with tops := s.tops.map (fun x =>
      match x.2.from_ with
      | .core c => if c / 64 == sp then (x.1, { x.2 with launch := none }) else x
      | .command .. => x) }

/-- Scratchpads and CLMs of the spire read zero. -/
def clearSpire (sp : Nat) (s : State) : State :=
  let lo := localBase (sp * 64) 0
  let cl := clmBase (sp * 8)
  let out := fun u => (u < lo || lo + 2 ^ 28 ≤ u) && (u < cl || cl + 2 ^ 25 ≤ u)
  let s := { s with mem := (s.mem.clear lo (lo + 2 ^ 28)).clear cl (cl + 2 ^ 25), bad := s.bad.filter out }
  { s with clusters := s.clusters.map (fun x => if x.1 / 8 == sp && x.1 < 1024 then (x.1, { x.2 with tlb := [] }) else x) }

/-- Queues that the spire leads hand over while it resets (R328). -/
def handOver (sp : Nat) (s : State) : State :=
  s.queues.foldl (fun s x =>
    if x.2.leader == some sp then s.modQueue x.1 (fun k => { k with leader := leaderBut s [sp] x.1 }) else s) s

/-- SPIRE_DIE_RESET: the whole reset, after which the spire is eligible again. -/
def spireReset (sp : Nat) (s : State) : State :=
  let s := endLaunches sp s
  let s := (spireRange sp).foldl resetCore s
  handOver sp (clearSpire sp (orphanTops sp s))
def execSpireDieReset (sp : Nat) (s : State) : Out := .next (spireReset sp s)

/-- ROUTER_RESET (R393): flows are detoured, the router drains and is reset, and the routes of R12 are restored. A detour and
a wait at the source change when accesses arrive and nothing that the state holds: queued requests stay queued. -/
def routerReset (_ : Nat) (s : State) : State := s
def execRouterReset (site : Nat) (s : State) : Out := .next (routerReset site s)

end Sys2Proof.Machine
end

