-- ==== Sys2Proof/Machine/Regs.lean ====
section
/-! DEFINITION. The device registers (R4, R211, R252, R346, R347, R374, R377, R412), the actions that their writes start
(R211, R253, R374, R413, R415, R417), and the host's accesses through its windows (R321, R398, R399). -/

namespace Sys2Proof.Machine

/-! ## Which register stands where -/

/-- A 64-bit device register; `none` is a reserved offset. -/
inductive Reg where
  | dome (d off : Nat)
  | inj (c : Nat) (stat : Bool)
  | count (c i : Nat)
  | mon (m : MonAddr) (i : Nat)
  | frec (c i : Nat)
  | firm (off : Nat)
  | lan (p i : Nat)
  | none
  deriving DecidableEq, Repr

/-- Registers of a spire by offset. -/
def spireReg (sp o : Nat) : Reg :=
  if 0x800 ≤ o && o < 0xC00 then .inj (64 * sp + (o - 0x800) / 16) (o % 16 == 8)
  else if 0x1000 ≤ o && o < 0x2000 then .count (64 * sp + (o - 0x1000) / 64) (o % 64 / 8)
  else if 0x2000 ≤ o && o < 0x2400 then .mon (.spire sp ((o - 0x2000) / 128)) (o % 128 / 8)
  else if 0x3000 ≤ o && o < 0x4000 then .frec (64 * sp + (o - 0x3000) / 64) (o % 64 / 8)
  else .none

/-- Registers of class 0xB by offset. -/
def lanternReg (d o : Nat) : Reg :=
  if o < 0x800 then .lan (64 * d + o / 32) (o % 32 / 8)
  else if 0x1000 ≤ o && o < 0x1400 then .mon (.dome d ((o - 0x1000) / 128)) (o % 128 / 8)
  else .none

/-- The register at an 8-byte aligned physical address. -/
def regAt (a : Nat) : Reg :=
  let o := a % 2 ^ 48
  match paClass a with
  | 9 => if o < 2 ^ 23 then .dome (o / 2 ^ 16) (o % 2 ^ 16) else .none
  | 10 =>
    if o < 2 ^ 23 then spireReg (o / 2 ^ 16) (o % 2 ^ 16)
    else if 2 ^ 33 ≤ o && o < 2 ^ 33 + 0x1000 then .firm (o - 2 ^ 33)
    else .none
  | 11 => if o < 2 ^ 23 then lanternReg (o / 2 ^ 16) (o % 2 ^ 16) else .none
  | _ => .none

/-! ## Reading a register -/

/-- DSTAT (R211). -/
def dstatOf (k : Dome) : Nat :=
  (if k.formatted then 1 else 0) + (if k.pendLow then 2 else 0) + (if k.pendExh.isSome then 4 else 0)

def domeValue (k : Dome) (off : Nat) : Nat :=
  match off with
  | 0x00 => 1907
  | 0x08 => k.lcap
  | 0x10 => k.poolFree
  | 0x18 => k.poolLow
  | 0x20 => k.balloon.length
  | 0x28 => k.held.length
  | 0x30 => dstatOf k
  | 0x38 => k.sectors
  | 0x40 => k.expands
  | 0x48 => k.shrinks
  | 0x50 => k.rawWr
  | 0x58 => k.zeroWr
  | 0x60 => k.bTakes
  | 0x68 => k.exhausts
  | 0x70 => k.abandons
  | 0x78 => k.balloonHit
  | 0x80 => k.rfms
  | 0x88 => k.alerts
  | 0x90 => k.noteDly
  | _ => 0

def countValue (k : Core) (i : Nat) : Nat :=
  match i with
  | 0 => k.seq.vcc
  | 1 => k.lateFrz
  | 2 => k.frzCnt
  | 3 => k.qUnder
  | 4 => k.ceCnt
  | 5 => k.ueCnt
  | 6 => k.ftoCnt
  | _ => 0

def lanternValue (k : Pair) (i : Nat) : Nat := match i with | 0 => k.qUnder | 1 => k.lfrz | 2 => k.ceCnt | _ => 0

def frecValue (r : FRec) (i : Nat) : Nat :=
  match i with
  | 0 => r.kind + (5 - posBit r.slot) * 16
  | 1 => r.r0.toNat
  | 2 => r.r1.toNat
  | 3 => r.r2.toNat
  | _ => 0

def monKey : MonAddr → Nat
  | .spire sp m => 8 * sp + m
  | .dome d m => 8 * d + m
def State.monitor (s : State) (m : MonAddr) : Monitor :=
  match m with
  | .spire .. => lookD s.spireMon (monKey m) Monitor.fresh
  | .dome .. => lookD s.domeMon (monKey m) Monitor.fresh
def State.setMonitor (s : State) (m : MonAddr) (v : Monitor) : State :=
  match m with
  | .spire .. => { s with spireMon := put s.spireMon (monKey m) v }
  | .dome .. => { s with domeMon := put s.domeMon (monKey m) v }

/-- Four bins of a histogram. -/
def binWord (l : List Nat) (i : Nat) : Nat := ofBytes ((l.drop (4 * i)).take 4 |>.flatMap (fun v => toBytes v 2))

def monValue (m : Monitor) (i : Nat) : Nat :=
  match i with
  | 0 => m.ctl.toNat
  | 1 => m.cnt
  | 2 => m.min.toNat
  | 3 => m.max.toNat
  | 4 => binWord m.hist 0
  | 5 => binWord m.hist 1
  | 6 => binWord m.hist 2
  | 7 => binWord m.hist 3
  | 8 => m.last.toNat
  | 9 => m.alert.toNat
  | _ => 0

/-- The band table as a field of 192 bits (R412). -/
def bandField (s : State) : Nat :=
  (List.range 96).foldl (fun n i => n + lookD s.fw.bands i 0 % 4 * 2 ^ (2 * i)) 0

/-- A list cut or filled with zeros to n bytes. -/
def fitBytes (n : Nat) (l : List Byte) : List Byte := (l ++ List.replicate n 0).take n

def firmValue (s : State) (off : Nat) : Nat :=
  let f := s.fw
  if off == 0x000 then f.stage + (if f.degraded then 8 else 0) + f.error.toNat * 256
  else if off == 0x008 then Config.romVer.toNat
  else if off == 0x010 then f.patchVer.toNat
  else if off == 0x018 then f.qtab
  else if off == 0x020 then f.nqhdr
  else if off == 0x028 then f.bootctl.toNat
  else if off == 0x030 then f.patchAddr
  else if off == 0x038 then f.patchStat.toNat
  else if 0x040 ≤ off && off < 0x060 then bytesAt (fitBytes 32 f.attNonce) (off - 0x40) 8
  else if off == 0x060 then f.attAddr.toNat
  else if off == 0x068 then f.attStat.toNat
  else if 0x080 ≤ off && off < 0x0C0 then Config.idPub.toNat / 2 ^ (8 * (off - 0x80)) % 2 ^ 64
  else if 0x100 ≤ off && off < 0x118 then bandField s / 2 ^ (8 * (off - 0x100)) % 2 ^ 64
  else if 0x180 ≤ off && off < 0x200 then (lookD f.toffs ((off - 0x180) / 8) 0).toNat
  else if 0x400 ≤ off && off < 0x800 then (lookD f.liveCore ((off - 0x400) / 8) 0).toNat
  else if 0x800 ≤ off && off < 0xC00 then (lookD f.liveLant ((off - 0x800) / 8) 0).toNat
  else 0

/-- What a register reads as. -/
def regValue (s : State) : Reg → W64
  | .dome d off => BitVec.ofNat 64 (domeValue (s.dome d) off)
  | .inj c stat => if stat then (s.core c).injStat else (s.core c).injCtl
  | .count c i => BitVec.ofNat 64 (countValue (s.core c) i)
  | .mon m i => BitVec.ofNat 64 (monValue (s.monitor m) i)
  | .frec c i => BitVec.ofNat 64 (frecValue (s.core c).frec i)
  | .firm off => BitVec.ofNat 64 (firmValue s off)
  | .lan p i => BitVec.ofNat 64 (lanternValue (s.pair p) i)
  | .none => 0

/-! ## What writes start -/

/-- The last note that meets a test goes. -/
def dropLast (p : Note → Bool) (l : List Note) : List Note :=
  match l.reverse.findIdx? p with
  | some i => (l.reverse.eraseIdx i).reverse
  | none => l

/-- DSTAT_CLEAR (R211): a pending bit written as 1 clears, and its delayed notification is withdrawn. -/
def dstatClear (d : Nat) (v : W64) (s : State) : State :=
  let k := s.dome d
  let low := v.getLsbD 1 && k.pendLow
  let exh := v.getLsbD 2 && k.pendExh.isSome
  let s := s.setDome d { k with pendLow := k.pendLow && !low
                                pendExh := if exh then none else k.pendExh }
  let ns := if low then dropLast (fun n => n.code == 0x10 && n.index == d) s.notes else s.notes
  { s with notes := if exh then dropLast (fun n => n.code == 0x11 && n.index == d) ns else ns }
def execDstatClear (d : Nat) (v : W64) (s : State) : Out := .next (dstatClear d v s)

/-- INJCTL_WRITE (R253): an arming write counts from the cycle in which it is performed. -/
def injctlWrite (c : Nat) (v : W64) (s : State) : State :=
  s.modCore c (fun k => { k with injCtl := v &&& 0x7FFFFFFFFF#64, injFrom := if v.getLsbD 0 then s.now else k.injFrom })
def execInjctlWrite (c : Nat) (v : W64) (s : State) : Out := .next (injctlWrite c v s)

/-- MONCTL_WRITE (R374): a monitor is configured and its captures are cleared. -/
def monctlWrite (m : MonAddr) (v : W64) (s : State) : State :=
  s.setMonitor m { Monitor.fresh with ctl := v &&& 0x1F3F7F#64, alert := (s.monitor m).alert, wrote := some s.now }
def execMonctlWrite (m : MonAddr) (v : W64) (s : State) : Out := .next (monctlWrite m v s)

/-- BOOTCTL_GO (R413): bit 0 takes bring-up from stage 6 to ready; the queue headers are read and leaders elected. -/
def bootctlGo (v : W64) (s : State) : State :=
  let s := { s with fw := { s.fw with bootctl := v &&& 1#64 } }
  if v.getLsbD 0 && s.fw.stage == 6 then
    (List.range 64).foldl (fun s q => readHeader false q s) { s with fw := { s.fw with stage := 7 } }
  else s
def execBootctlGo (v : W64) (s : State) : Out := .next (bootctlGo v s)

/-! ## Patch overlays (R415) -/

/-- What the check of an overlay ends in. -/
inductive PatchRes where
  | accept (ver : BitVec 32) (image : List Byte)
  | refuse (reason : Nat)
  | wait

/-- Reasons 2 to 4, once the object itself is sound. -/
def checkPatch (s : State) (bs : List Byte) : PatchRes :=
  let ss := sectsOf bs
  let sign := bytesOfSect bs ss 15
  let key := BitVec.ofNat 64 (bytesAt sign 64 8)
  let data := bytesOfSect bs ss 10
  let ver := bytesAt data 0 4
  if !Config.romKey key then .refuse 2
  else if !Config.sm2Verify key (Config.sm3 (bs.take ((sectBy ss 15).map (·.off) |>.getD 0))) (sign.take 64) then .refuse 3
  else if ver ≤ s.fw.patchVer.toNat then .refuse 4
  else .accept (BitVec.ofNat 32 ver) (data.drop 4)

/-- An overlay: an object with flag bit 2, a SIGN section, and DATA that begins with a version. -/
def readPatch (s : State) (va : Nat) : PatchRes :=
  match readObject s va with
  | .wait => .wait
  | .bad _ => .refuse 1
  | .ok bs =>
    let ss := sectsOf bs
    if (objectFault false bs).isSome || !(bytesAt bs 16 4).testBit 2 || (sectBy ss 15).isNone || (bytesOfSect bs ss 10).length < 4
      then .refuse 1
    else checkPatch s bs

/-- The check of the overlay at PATCHADDR; while its bytes make the firmware wait, PATCHSTAT reads 1. -/
def patchCheck (s : State) : State :=
  match readPatch s s.fw.patchAddr with
  | .wait => { s with fw := { s.fw with patchStat := 1 } }
  | .refuse n => { s with fw := { s.fw with patchStat := BitVec.ofNat 64 (3 + n * 256) } }
  | .accept ver img =>
    let s := { s with fw := { s.fw with patchStat := 1, patchHeld := some (ver, Config.sm3 img) } }
    if s.launches.isEmpty then loadPatch s else s

/-- PATCHADDR_WRITE: the overlay is checked, and applied once no launch is running. -/
def patchWrite (v : W64) (s : State) : State :=
  if s.fw.patchStat.toNat % 4 == 1 then s else patchCheck { s with fw := { s.fw with patchAddr := v.toNat % 2 ^ 56 } }
def execPatchaddrWrite (v : W64) (s : State) : Out := .next (patchWrite v s)

/-! ## Attestation (R417) -/

def partNumber : List Byte := [0x46, 0x4C, 0x43, 0x2D, 0x43, 0x57, 0x31, 0x2D, 0x41]

def liveBytes (l : List (Nat × W64)) : List Byte := (List.range 128).flatMap (fun i => toBytes (lookD l i 0).toNat 8)

/-- Bytes 0 to 143 of the report. -/
def reportBody (s : State) : List Byte :=
  fitBytes 32 s.fw.attNonce ++ fitBytes 16 partNumber ++ toBytes Config.romVer.toNat 4 ++ toBytes s.fw.patchVer.toNat 4 ++
    fitBytes 32 s.fw.patchHash ++ fitBytes 32 (Config.sm3 (liveBytes s.fw.liveCore ++ liveBytes s.fw.liveLant)) ++
    toBytes (bandField s) 24

def reportBytes (s : State) : List Byte :=
  let b := reportBody s
  b ++ fitBytes 64 (Config.sm2Sign (Config.sm3 b))

/-- The oldest report is written at its address, a system-scope address, and ATTSTAT becomes 2; while the write waits it reads 1. An
address where it cannot be written leaves ATTSTAT idle. -/
def attReport (s : State) : State :=
  match s.fw.attJobs with
  | [] => s
  | a :: _ =>
    match homeWrite s whoFirm (.firm a.toNat) a.toNat (reportBytes s) false with
    | .ok s' => attOver 2 s'
    | .wait s' => { s' with fw := { s'.fw with attStat := 1 } }
    | .err s' => attOver (if s.fw.attStat == 1 then 0 else s.fw.attStat) s'

/-- ATTADDR_WRITE: each write asks for a report, which comes after those that are still to be written (R398). -/
def attWrite (v : W64) (s : State) : State :=
  let s' : State := { s with fw := { s.fw with attAddr := v, attJobs := s.fw.attJobs ++ [v] } }
  if s.fw.attJobs.isEmpty then attReport s' else s'

/-- The headers that were still to be read after the start (R413). -/
def readUnread (s : State) : State :=
  s.fw.unread.foldl (fun s q => readHeader false q s) { s with fw := { s.fw with unread := [] } }

/-- What the firmware goes on with in every cycle: a check, a header, or a report, that memory has made wait. -/
def firmTick (s : State) : State :=
  let s := if s.fw.patchStat.toNat % 4 == 1 && s.fw.patchHeld.isNone then patchCheck s else s
  attReport (readUnread s)
def execAttaddrWrite (v : W64) (s : State) : Out := .next (attWrite v s)

/-! ## Writing a register (R4) -/

/-- The value after a merge of the written bytes. -/
def merge (old v mask : W64) : W64 := (old &&& ~~~mask) ||| (v &&& mask)

/-- Firmware registers that a write changes. -/
def firmWriteReg (off : Nat) (new : W64) (s : State) : State :=
  if off == 0x018 then { s with fw := { s.fw with qtab := new.toNat % 2 ^ 56 } }
  else if off == 0x020 then { s with fw := { s.fw with nqhdr := new.toNat % 2 ^ 56 } }
  else if off == 0x028 then bootctlGo new s
  else if off == 0x030 then patchWrite new s
  else if 0x040 ≤ off && off < 0x060 then
    let l := fitBytes 32 s.fw.attNonce
    { s with fw := { s.fw with attNonce := l.take (off - 0x40) ++ toBytes new.toNat 8 ++ l.drop (off - 0x40 + 8) } }
  else if off == 0x060 then attWrite new s
  else s

/-- A write to a register: `mask` covers the bytes written. RO fields and reserved offsets ignore it. -/
def regWrite (r : Reg) (v mask : W64) (s : State) : State :=
  let new := merge (regValue s r) v mask
  match r with
  | .dome d off =>
    if off == 0x18 then s.modDome d (fun k => { k with poolLow := new.toNat % 2 ^ 32 })
    else if off == 0x30 then dstatClear d (v &&& mask) s
    else s
  | .inj c stat =>
    if stat then s.modCore c (fun k => { k with injStat := k.injStat &&& ~~~(v &&& mask &&& 1#64) }) else injctlWrite c new s
  | .mon m i => if i == 0 then monctlWrite m new s else s
  | .firm off => firmWriteReg off new s
  | _ => s

/-- REGISTER_WRITE: a write of all 8 bytes of a register. -/
def registerWrite (pa : Nat) (v : W64) (s : State) : State := regWrite (regAt (pa / 8 * 8)) v (BitVec.allOnes 64) s
def execRegisterWrite (pa : Nat) (v : W64) (s : State) : Out := .next (registerWrite pa v s)

/-! ## MONITOR_SAMPLE (R375) -/

/-- The sample of a source that is taken in every cycle. -/
def spireLevel (s : State) (c src : Nat) : Option Nat :=
  let k := s.core c
  match src with
  | 2 => some k.ldq.length
  | 3 => some k.stq.length
  | 5 => some (windowSum k)
  | 6 => some k.mx.queue.length
  | _ => none
def domeLevel (s : State) (d agent src : Nat) : Option Nat :=
  match src with
  | 17 => some (s.dome d).held.length
  | 18 => some (s.dome d).tileQ.length
  | 22 => some ((s.pair (64 * d + agent)).window.foldl (· + ·) 0)
  | _ => none

/-- The sources of a monitor that are sampled by themselves: a level in every cycle, a temperature, which is measured, in every
800th. Latencies, freezes, releases and alerts are sampled where they end or rise. -/
def levelOf (s : State) (m : MonAddr) (k : Monitor) : Option Nat :=
  match m with
  | .spire sp _ => spireLevel s (64 * sp + k.agent) k.source
  | .dome d _ => domeLevel s d k.agent k.source
def isHeat (m : MonAddr) (k : Monitor) : Bool :=
  match m with
  | .spire .. => k.source == 7
  | .dome .. => k.source == 21

/-- A sample of a monitor is due in this cycle. -/
def sampleDue (s : State) (m : MonAddr) (k : Monitor) : Bool :=
  k.on && k.took != some s.now && ((levelOf s m k).isSome || (isHeat m k && s.now % 800 == 0))

/-- MONITOR_SAMPLE: the monitor takes the sample of the cycle. -/
def monitorSample (m : MonAddr) (v : Nat) (s : State) : State :=
  let k := s.monitor m
  if sampleDue s m k && (levelOf s m k).all (· == v) then s.setMonitor m (k.sample s.now v) else s
def execMonitorSample (m : MonAddr) (v : Nat) (s : State) : Out := .next (monitorSample m v s)

/-- A sample that must be taken before the clock goes on. -/
def samplesDue (s : State) : Bool :=
  s.spireMon.any (fun x => sampleDue s (.spire (x.1 / 8) (x.1 % 8)) x.2) ||
    s.domeMon.any (fun x => sampleDue s (.dome (x.1 / 8) (x.1 % 8)) x.2)

/-! ## Notifications to the host (R344) -/

/-- The record of a note at posting. -/
def noteBytes (s : State) (n : Note) : List Byte :=
  let k := s.dome n.index
  let w0 := if n.code == 0x10 || n.code == 0x11 then k.poolFree else n.w0.toNat
  let w1 := if n.code == 0x10 then k.balloon.length else n.w1.toNat
  toBytes n.code 1 ++ toBytes n.source 1 ++ toBytes n.index 2 ++ toBytes 0 4 ++ toBytes w0 8 ++ toBytes w1 8

/-- The pending bit of a posted event clears (R206, R342). -/
def clearPending (n : Note) (s : State) : State :=
  if n.code == 0x10 then s.modDome n.index (fun k => { k with pendLow := false })
  else if n.code == 0x11 then s.modDome n.index (fun k => { k with pendExh := none })
  else if n.code == 0x20 then
    let g := n.w0.toNat % 2 ^ 37 / 65536
    s.modDome n.index (fun k => { k with counts := k.counts.map (fun c =>
      if c.1 == g then (g, { c.2 with pending := false }) else c) })
  else s

/-- A record is out: its event is no longer pending, and an interrupt follows on the port. -/
def notePosted (n : Note) (rest : List Note) (q : NoteHdr) (s : State) : State :=
  postIrq (clearPending n { s with notes := rest }) q.port (BitVec.ofNat 64 (q.thread + 2 ^ 32))

/-- NOTIFICATION_POST: slot wrptr is claimed while there is room; the record goes out, its stamp last, and an interrupt
follows on the port. Where the record would wait at its home, none of this is done yet. -/
def notificationPost (s : State) : State :=
  match s.notes, s.noteHdr with
  | n :: rest, some q =>
    if q.nslots ≤ used32 q.wr q.rd then s
    else
      match homeWrite s whoFirm (.firm (q.pa + 12)) (q.pa + 12) (toBytes ((q.wr + 1) % 2 ^ 32) 4) false with
      | .wait s' => s'
      | .err s' => s'
      | .ok s1 =>
        let at_ := q.ring + 32 * (q.wr % max 1 q.nslots)
        match homeWrite s1 whoFirm (.firm at_) at_ (noteBytes s n ++ toBytes (q.wr + 1) 8) false with
        | .wait _ => s
        | .ok s2 => notePosted n rest q s2
        | .err s2 => notePosted n rest q s2
  | _, _ => s
def execNotificationPost (s : State) : Out := .next (notificationPost s)

/-- NOTIFICATION_RDPTR_WRITE: the host driver's write frees room. -/
def rdptrWrite (v : BitVec 32) (s : State) : State :=
  match s.noteHdr with
  | none => s
  | some q =>
    match homeWrite s whoFirm (.access s.nextId) (q.pa + 16) (toBytes v.toNat 4) false with
    | .ok s' => orderNotes (q.nslots - used32 q.wr q.rd) s'
    | .wait s' => outsideReq .host .store (q.pa + 16) 4 (v.setWidth 512) 0 s'
    | .err s' => s'
def execNotificationRdptrWrite (v : BitVec 32) (s : State) : Out := .next (rdptrWrite v s)

/-! ## The host's windows (R398, R399) -/

def isRegClass (pa : Nat) : Bool := paClass pa == 9 || paClass pa == 10 || paClass pa == 11

/-- Bytes of registers. -/
def regBytes (s : State) (pa n : Nat) : List Byte :=
  (List.range n).map (fun i =>
    BitVec.ofNat 8 ((regValue s (regAt ((pa + i) / 8 * 8))).toNat / 2 ^ (8 * ((pa + i) % 8))))

/-- HOST_WINDOW_READ. -/
def hostRead (pa n : Nat) (s : State) : State :=
  if postAddr pa then hostReply pa none s
  else if isRegClass pa then hostReply pa (some (regBytes s pa n)) s
  else if paClass pa == 0 || paClass pa == 8 then
    match homeRead s whoFirm pa n with
    | .ok bs po s' => hostReply pa (if po then none else some bs) s'
    | .err s' => hostReply pa none s'
    | .wait => outsideReq .host .load pa n 0 0 s
  else hostReply pa none s
def execHostWindowRead (pa : Nat) (n : Nat) (s : State) : Out := .next (hostRead pa n s)

/-- The mask of the bytes of a register that a write covers, and their values. -/
def coverMask (a pa : Nat) (bs : List Byte) : W64 × W64 :=
  let hit := (List.range 8).filter (fun i => pa ≤ a + i && a + i < pa + bs.length)
  (BitVec.ofNat 64 ((hit.map (fun i => 255 * 2 ^ (8 * i))).foldl (· + ·) 0),
   BitVec.ofNat 64 ((hit.map (fun i => (bs.getD (a + i - pa) 0).toNat * 2 ^ (8 * i))).foldl (· + ·) 0))

/-- A write over registers, in ascending order. -/
def writeRegs (pa : Nat) (bs : List Byte) (s : State) : State :=
  (stepsOf pa bs.length 8).foldl (fun s a =>
    let c := coverMask a pa bs
    regWrite (regAt a) c.2 c.1 s) s

/-- A post, or what a write of another shape there meets (R399). -/
def hostPost (pa : Nat) (bs : List Byte) (s : State) : State :=
  let q := (pa - 0xA000100000000) / 8
  if bs.length == 8 && pa % 8 == 0 && q < 64 then hostReply pa (some []) (post q s) else hostReply pa none s

/-- A write to memory by the host; one that its home makes wait stands there as a request. -/
def hostStore (pa : Nat) (bs : List Byte) (s : State) : State :=
  match homeWrite s whoFirm (.access s.nextId) pa bs false with
  | .ok s' => hostReply pa (some []) (afterHostWrite s pa bs.length s')
  | .err s' => hostReply pa none s'
  | .wait s' => outsideReq .host .store pa bs.length (BitVec.ofNat 512 (ofBytes bs)) 0 s'

/-- HOST_WINDOW_WRITE. -/
def hostWrite (pa : Nat) (bs : List Byte) (s : State) : State :=
  if postAddr pa then hostPost pa bs s
  else if isRegClass pa then hostReply pa (some []) (writeRegs pa bs s)
  else if paClass pa == 0 || paClass pa == 8 then hostStore pa bs s
  else hostReply pa none s
def execHostWindowWrite (pa : Nat) (bs : List Byte) (s : State) : Out := .next (hostWrite pa bs s)

/-- EVENT_COUNTER_HOST_WRITE (R321): a counter in memory, the host's own included, takes a value; a WAITEV that it meets is
answered at once. -/
def counterWrite (pa : Nat) (v : W64) (s : State) : State :=
  if pa % 8 == 0 && (paClass pa == 0 || paClass pa == 8 || paClass pa == 12) then hostStore pa (toBytes v.toNat 8) s else s
def execEventCounterHostWrite (pa : Nat) (v : W64) (s : State) : Out := .next (counterWrite pa v s)

end Sys2Proof.Machine
end

