-- ==== Sys2Proof/Machine/Board.lean ====
section
/-! DEFINITION. The panel reset with its bring-up stages (R1, R13, R176, R193, R194, R373, R413, R414). -/

namespace Sys2Proof.Machine

/-! ## What bring-up works out -/

/-- LCAP of each dome from the boot configuration (R193, R413). -/
def flashOk (b : BringUp) : Bool := (Config.sm3 (b.flash.take 256)).take 32 == (b.flash.drop 256).take 32
def lcapOf (b : BringUp) (d : Nat) : Nat :=
  let v := bytesAt b.flash (2 * d) 2
  if flashOk b && 1907 ≤ v && v ≤ 3814 then v else 1907

/-- The live map: a spire with fewer than 60 live cores has none (R414). -/
def liveWord (w : W64) : W64 := if (setBits w 64).length < 60 then 0 else w
def liveMap (l : List W64) : List (Nat × W64) := l.mapIdx (fun i w => (i, w))

/-- The lowest band whose bound is at least the largest adder plus 1 (R414). -/
def bandFor (adder : Nat) : Nat := adder + 1 - 2
def crossingOk (adder : Nat) : Bool := adder + 1 ≤ 5

def firstError (b : BringUp) : BitVec 8 := if flashOk b then 0 else 1

/-- The firmware block once stages 0 and 1 are over. -/
def bootFirm (b : BringUp) : Firmware :=
  { Firmware.fresh with
    stage := 2
    error := firstError b
    degraded := b.liveCore.any (fun w => (setBits w 64).length < 60)
    liveCore := liveMap (b.liveCore.map liveWord)
    liveLant := liveMap b.liveLant }

/-- The firmware block once stages 2 to 5 are over. -/
def readyFirm (b : BringUp) : Firmware :=
  { bootFirm b with
    stage := 6
    bands := b.adders.mapIdx (fun i a => (i, bandFor a))
    toffs := liveMap b.toffs
    ports := b.ports.mapIdx (fun i p => (i, p))
    portUp := b.ports.mapIdx (fun i p => (i, p != .none))
    portStep := b.ports.mapIdx (fun i _ => (i, 0))
    power := 30500
    nextTable := 0x4000
    noLead := b.noLead }

/-- Bytes that the panel does not hold outlast its reset: host memory and the memory of peers. -/
def outside (m : Memory) : Memory := (m.clear 0 (12 * 2 ^ 48)).filter (fun c => paClass c.1 == 12 || paClass c.1 == 14)

/-- The panel with nothing in it, at the present cycle. -/
def blank (s : State) : State :=
  { State.reset with
    now := s.now
    timeBase := s.now
    turns := s.turns
    agenda := s.agenda
    free := s.free
    nextId := s.nextId
    mem := outside s.mem
    hostReads := s.hostReads
    peerReps := s.peerReps }

/-- A page that the first page table maps. -/
def bootPage (s : State) (p : BootPage) : State :=
  if p.va % pageSize p.large == 0 && p.va < 2 ^ 56 && s.pageOk p.pa p.large then
    writeLeaf s p.va { pa := p.pa, large := p.large, read := p.read, write := p.write, moving := false }
  else s

/-- PANEL_RESET: the stages in order. A crossing that needs more than 5 cycles halts bring-up at stage 2 (R414). -/
def panelReset (b : BringUp) (s : State) : State :=
  let s := blank s
  if !b.adders.all crossingOk then { s with fw := { bootFirm b with error := 2 } }
  else
    let s := { s with
      fw := readyFirm b
      domes := (List.range 128).map (fun d => (d, formatDome (lcapOf b d) Dome.fresh)) }
    b.pages.foldl bootPage s
def execPanelReset (b : BringUp) (s : State) : Out := .next (panelReset b s)

end Sys2Proof.Machine
end

