-- ==== Sys2Proof/Machine/Control.lean ====
section
/-! DEFINITION. Control transfers, the loop nest, control registers and TRAP (R118 to R129). -/

namespace Sys2Proof.Machine

/-! ## Transfers -/

/-- The position of the next sequential bundle after the one at t (R78, R124). Where no bundle can be fetched at t (the end of
the stream, an escape that runs past it, an entry that was not loaded), the spec gives none: it is t + 1 (DESIGN CHOICE). -/
def followOf (k : Seq) (t : Nat) : Nat :=
  match fetchAt k.code k.dict t with
  | some r => r.2.1
  | none => t + 1

/-- The nest whose rules govern the bundle at hand: none in a handler, whose bundles never loop back (R126). -/
def nestOf (s : State) : Option ActNest :=
  match s.cur.agent with
  | .core c => if inHandler (s.core c) then none else (s.core c).actNest
  | _ => none

def depthOf (s : State) : Nat := (s.seq s.cur.agent).rstack.length

def setNest (s : State) (n : Option ActNest) : State :=
  match s.cur.agent with
  | .core c => s.modCore c (fun k => { k with actNest := n })
  | _ => s

def inBody (n : ActNest) (t : Nat) : Bool := n.start ≤ t && t ≤ n.stop

/-- A taken transfer: the target issues at c + 2. A bundle with END changes no fetch (R118, R121). -/
def takeTransfer (s : State) (t : Nat) : State :=
  if s.cur.fin then s
  else
    { s.modSeq s.cur.agent (fun k => { k with pos := t, nextAt := k.vcc + 2 }) with
      cur := { s.cur with moved := true } }

/-- BR and BRX at target t (R126): a branch into the body from a deeper call is LOOP_FAULT, a branch out of it at the
nest's own depth ends the nest. -/
def branchAct (s : State) (t : Nat) : Act :=
  match nestOf s with
  | none => Act.eff (fun s => takeTransfer s t)
  | some n =>
    if n.d0 < depthOf s && inBody n t then Act.trap cLoopFault FRec.none
    else if depthOf s == n.d0 && !inBody n t then Act.eff (fun s => takeTransfer (setNest s none) t)
    else Act.eff (fun s => takeTransfer s t)

def pushReturn (s : State) : State :=
  s.modSeq s.cur.agent (fun k => { k with rstack := s.cur.next :: k.rstack })

/-- CALL at target t (R120, R126). With 16 entries held, a CALL that R126 makes a LOOP_FAULT as well raises QUEUE_OVERFLOW:
the spec does not order the two (DESIGN CHOICE). -/
def callAct (s : State) (t : Nat) : Act :=
  if 16 ≤ depthOf s then Act.trap qOverflow FRec.none
  else
    match nestOf s with
    | none => Act.eff (fun s => takeTransfer (pushReturn s) t)
    | some n =>
      if s.cur.pos == n.stop || (n.d0 < depthOf s && inBody n t) then Act.trap cLoopFault FRec.none
      else Act.eff (fun s => takeTransfer (pushReturn s) t)

/-- The lowest depth of the return stack that a RET may leave: a handler's stays above that of its entry (R130). -/
def floorDepth (s : State) : Nat :=
  match s.cur.agent with
  | .core c => if inHandler (s.core c) then (s.core c).handlerDepth else 0
  | _ => 0

/-- RET (R120, R126, R130). -/
def retAct (s : State) : Act :=
  match (s.seq s.cur.agent).rstack with
  | [] => Act.trap qUnderflow FRec.none
  | t :: rest =>
    if rest.length < floorDepth s then Act.trap qUnderflow FRec.none
    else
      let pop := fun s : State => s.modSeq s.cur.agent (fun k => { k with rstack := rest })
      match nestOf s with
      | none => Act.eff (fun s => takeTransfer (pop s) t)
      | some n =>
        if depthOf s == n.d0 then
          (if inBody n t then Act.trap cLoopFault FRec.none
           else Act.eff (fun s => takeTransfer (setNest (pop s) none) t))
        else Act.eff (fun s => takeTransfer (pop s) t)

/-- BR (R118). -/
def execBr (p : Pre) (f : FmtSJ) (s : State) : Out :=
  .next (runSlot p (fun s => { lane := 0, srcs := [], act := fun _ => branchAct s f.target.toNat }) s)

/-- BRX (R119). -/
def execBrx (p : Pre) (f : FmtSJ) (s : State) : Out :=
  .next (runSlot p (fun s =>
    { lane := 0, srcs := [.x f.xa.toNat f.pa],
      act := fun vs =>
        let t := (toX (vs.getD 0 0)).toNat
        if 2 ^ 24 ≤ t then Act.trap causeIllegalIndex FRec.none else branchAct s t }) s)

/-- CALL (R118, R120). -/
def execCall (p : Pre) (f : FmtSJ) (s : State) : Out :=
  .next (runSlot p (fun s => { lane := 0, srcs := [], act := fun _ => callAct s f.target.toNat }) s)

/-- RET (R120). -/
def execRet (p : Pre) (s : State) : Out :=
  .next (runSlot p (fun s => { lane := 0, srcs := [], act := fun _ => retAct s }) s)

/-! ## The loop nest -/

/-- Whether a nest is active or a handler runs: LSET and LRUN are then LOOP_FAULT (R123, R124). -/
def nestBusy (s : State) : Bool :=
  match s.cur.agent with
  | .core c => inHandler (s.core c) || (s.core c).actNest.isSome
  | _ => true

/-- The pending nest after an LSET (R123). -/
def pendSet (p : PendNest) (place reg ext : Nat) : PendNest :=
  match p with
  | .set l => .set (put l place (reg, ext))
  | _ => .set [(place, reg, ext)]

/-- LSET (R123). -/
def execLset (p : Pre) (f : FmtSK) (s : State) : Out :=
  .next (runSlot p (fun s =>
    { lane := 0, srcs := [.x f.x.toNat f.pa],
      act := fun vs =>
        let e := (toX (vs.getD 0 0)).toNat
        if 2 ^ 32 ≤ e || nestBusy s then Act.trap cLoopFault FRec.none
        else
          { fault := none, dsts := [],
            commit := fun _ s =>
              scheduleNow (s.modCore (coreOf s.cur.agent) (fun k =>
                { k with pendNest := pendSet k.pendNest f.idx.toNat f.cr.toNat e })) p.pos (s.at + 1)
                (.loop f.cr.toNat 0) } }) s)

/-- What LRUN makes of the pending nest: registers, extents and first indices by place, and the count; none where it
is LOOP_FAULT (R124). -/
def pendStart (p : PendNest) (nd : Nat) : Option (List Nat × List Nat × List Nat × Nat) :=
  match p with
  | .empty => none
  | .slice regs ext start count => if nd == regs.length then some (regs, ext, start, count) else none
  | .set l =>
    let ps := (List.range nd).filterMap (fun i => look l i)
    let regs := ps.map (·.1)
    let ext := ps.map (·.2)
    if ps.length < nd || !decide regs.Nodup then none
    else
      let cnt := ext.foldl (· * ·) 1
      if 2 ^ 48 - 1 < cnt then none else some (regs, ext, ps.map (fun _ => 0), cnt)

/-- Schedules the loop registers of the places whose index is given. -/
def scheduleLoops (s : State) (pos : Pos) (due : Nat) : List (Nat × Nat) → State
  | [] => s
  | (r, v) :: l => scheduleLoops (scheduleNow s pos due (.loop r (BitVec.ofNat 32 v))) pos due l

/-- LRUN (R124). In a bundle with END a true LRUN empties the pending nest and writes no loop register: R121 leaves open what
it does beside its pops, pushes and return-stack change (DESIGN CHOICE). -/
def execLrun (p : Pre) (f : FmtSJ) (s : State) : Out :=
  .next (runSlot p (fun s =>
    { lane := 0, srcs := [],
      act := fun _ =>
        let t := f.target.toNat
        let c := coreOf s.cur.agent
        if nestBusy s || t < s.cur.next then Act.trap cLoopFault FRec.none
        else
          match pendStart (s.core c).pendNest f.nd.toNat with
          | none => Act.trap cLoopFault FRec.none
          | some (regs, ext, idx, cnt) =>
            Act.eff (fun s =>
              let s := s.modCore c (fun k => { k with pendNest := .empty })
              if s.cur.fin then s
              else if cnt == 0 then takeTransfer s (followOf (s.seq s.cur.agent) t)
              else
                scheduleLoops (setNest s (some { start := s.cur.next, stop := t, regs := regs, ext := ext, idx := idx,
                                                 cnt := cnt, d0 := depthOf s })) p.pos (s.at + 1) (regs.zip idx)) }) s)

/-- The indices after one iteration, innermost place last (R125): places from the innermost out, each with its extent
and whether it moved; place 0 does not wrap. -/
def nestStep : List (Nat × Nat) → List Nat
  | [] => []
  | [(_, i)] => [i + 1]
  | (e, i) :: l => if i + 1 < e then (i + 1) :: l.map (·.2) else 0 :: nestStep l

def nestNext (ext idx : List Nat) : List Nat := (nestStep ((ext.zip idx).reverse)).reverse

/-- The loop-back of the bundle at the end position (R125): it holds no taken transfer and stands at depth d0. -/
def loopBack (s : State) : State :=
  match nestOf s with
  | none => s
  | some n =>
    if s.cur.pos == n.stop && depthOf s == n.d0 && !s.cur.moved && !s.cur.fin then
      if n.cnt ≤ 1 then setNest s none
      else
        let idx := nestNext n.ext n.idx
        let ch := ((n.regs.zip (n.idx.zip idx)).filter (fun x => x.2.1 != x.2.2)).map (fun x => (x.1, x.2.2))
        scheduleLoops ((setNest s (some { n with idx := idx, cnt := n.cnt - 1 })).modSeq s.cur.agent
          (fun k => { k with pos := n.start })) .sc (s.at + 1) ch
    else s

/-- Whether the bundle at hand stands beyond the end of its nest's body, at the nest's depth (R126). -/
def beyondEnd (s : State) (pos : Nat) : Bool :=
  match nestOf s with
  | some n => depthOf s == n.d0 && n.stop < pos
  | none => false

/-! ## Control registers -/

/-- TIME of the region of a site (R348). -/
def State.timeAt (s : State) (site : Nat × Nat) : W64 :=
  BitVec.ofNat 64 (s.now - s.timeBase) + lookD s.fw.toffs (regionOf site) 0

def agentSite : Agent → Nat × Nat
  | .core c => coreSite c
  | .lanA p => domeSite (p / 64)
  | .lanE p => domeSite (p / 64)

/-- The value RDCR samples (R99, R127). -/
def readCr (s : State) (a : Agent) (cr idx : Nat) : W64 :=
  let k := s.core (coreOf a)
  match cr with
  | 0 => BitVec.ofNat 64 s.at
  | 1 => s.timeAt (agentSite a)
  | 2 => (match a with
          | .core _ => if k.detMode then 1 else 0
          | _ => if (s.pair (pairOf a)).detMode then 1 else 0)
  | 3 => BitVec.ofNat 64 k.logIdx
  | 4 => BitVec.ofNat 64 k.gridX
  | 5 => BitVec.ofNat 64 k.gridY
  | 6 => k.faultMask.setWidth 64
  | 7 => k.cause.setWidth 64
  | 8 => k.epc.setWidth 64
  | 9 => k.uivec.setWidth 64
  | 10 => k.uistat
  | 11 => BitVec.ofNat 64 (k.spillBase % 2 ^ 19)
  | 12 => BitVec.ofNat 64 k.spillOvf
  | 13 => BitVec.ofNat 64 k.pwrLim
  | 14 => BitVec.ofNat 64 (k.window.foldl (· + ·) 0)
  | 15 => BitVec.ofNat 64 k.frzCnt
  | 16 => BitVec.ofNat 64 k.lateFrz
  | 17 => 16
  | 18 => BitVec.ofNat 64 (lookD s.fw.bands idx 0)
  | _ => lookD s.fw.toffs idx 0

/-- RDCR (R127). -/
def execRdcr (p : Pre) (f : FmtSK) (s : State) : Out :=
  .next (runSlot p (fun s =>
    { lane := 0, srcs := [], act := fun _ => pushX s f.x 1 (readCr s s.cur.agent f.cr.toNat f.idx.toNat) }) s)

/-- WRCR of UIVEC (R128). -/
def execWrcrUivec (p : Pre) (f : FmtSW) (s : State) : Out :=
  .next (runSlot p (fun s =>
    { lane := 0, srcs := [.x f.x.toNat f.pa],
      act := fun vs => Act.reg p.pos (s.at + 1) (.uivec ((toX (vs.getD 0 0)).setWidth 24)) }) s)

/-- WRCR of UISTAT (R128): bits [2:0] clear where 1 is written, bit [3] takes the value. -/
def execWrcrUistat (p : Pre) (f : FmtSW) (s : State) : Out :=
  .next (runSlot p (fun s =>
    { lane := 0, srcs := [.x f.x.toNat f.pa],
      act := fun vs => Act.reg p.pos (s.at + 1) (.uistat (toX (vs.getD 0 0))) }) s)

/-- TRAP (R129): the trap itself is taken once the bundle has committed. -/
def execTrap (p : Pre) (f : FmtSN) (s : State) : Out :=
  .next (runSlot p (fun _ =>
    { lane := 0, srcs := [],
      act := fun _ => Act.eff (fun s => { s with cur := { s.cur with trapAfter := some (0x80 ||| f.code) } }) }) s)

end Sys2Proof.Machine
end

