-- ==== Sys2Proof/Machine/Dispatch.lean ====
section
/-! DEFINITION. One arm per row of the operation table: each is one call of the meaning of that row. -/

namespace Sys2Proof.Machine

/-- The meaning of an instruction, mark, microinstruction, command or event. -/
def exec (i : Instr) (s : State) : Host.Outcome State Fault Refusal :=
  match i with
  | .nop p => Sys2Proof.Machine.execNop p s
  | .mov p f => Sys2Proof.Machine.execMov p f s
  | .movi p f => Sys2Proof.Machine.execMovi p f s
  | .moviz p f => Sys2Proof.Machine.execMoviz p f s
  | .movih p f => Sys2Proof.Machine.execMovih p f s
  | .sel p f => Sys2Proof.Machine.execSel p f s
  | .add p f => Sys2Proof.Machine.execAdd p f s
  | .sub p f => Sys2Proof.Machine.execSub p f s
  | .mul p f => Sys2Proof.Machine.execMul p f s
  | .mulh p f => Sys2Proof.Machine.execMulh p f s
  | .mulhn p f => Sys2Proof.Machine.execMulhn p f s
  | .div p f => Sys2Proof.Machine.execDiv p f s
  | .divn p f => Sys2Proof.Machine.execDivn p f s
  | .rem p f => Sys2Proof.Machine.execRem p f s
  | .remn p f => Sys2Proof.Machine.execRemn p f s
  | .min p f => Sys2Proof.Machine.execMin p f s
  | .max p f => Sys2Proof.Machine.execMax p f s
  | .minn p f => Sys2Proof.Machine.execMinn p f s
  | .maxn p f => Sys2Proof.Machine.execMaxn p f s
  | .abs p f => Sys2Proof.Machine.execAbs p f s
  | .and p f => Sys2Proof.Machine.execAnd p f s
  | .or p f => Sys2Proof.Machine.execOr p f s
  | .xor p f => Sys2Proof.Machine.execXor p f s
  | .andn p f => Sys2Proof.Machine.execAndn p f s
  | .clz p f => Sys2Proof.Machine.execClz p f s
  | .ctz p f => Sys2Proof.Machine.execCtz p f s
  | .popc p f => Sys2Proof.Machine.execPopc p f s
  | .shl p f => Sys2Proof.Machine.execShl p f s
  | .shr p f => Sys2Proof.Machine.execShr p f s
  | .sar p f => Sys2Proof.Machine.execSar p f s
  | .ror p f => Sys2Proof.Machine.execRor p f s
  | .addi p f => Sys2Proof.Machine.execAddi p f s
  | .andi p f => Sys2Proof.Machine.execAndi p f s
  | .ori p f => Sys2Proof.Machine.execOri p f s
  | .xori p f => Sys2Proof.Machine.execXori p f s
  | .shli p f => Sys2Proof.Machine.execShli p f s
  | .shri p f => Sys2Proof.Machine.execShri p f s
  | .sari p f => Sys2Proof.Machine.execSari p f s
  | .cmpeq p f => Sys2Proof.Machine.execCmpeq p f s
  | .cmpne p f => Sys2Proof.Machine.execCmpne p f s
  | .cmplt p f => Sys2Proof.Machine.execCmplt p f s
  | .cmple p f => Sys2Proof.Machine.execCmple p f s
  | .cmpltn p f => Sys2Proof.Machine.execCmpltn p f s
  | .cmplen p f => Sys2Proof.Machine.execCmplen p f s
  | .pand p f => Sys2Proof.Machine.execPand p f s
  | .por p f => Sys2Proof.Machine.execPor p f s
  | .pxor p f => Sys2Proof.Machine.execPxor p f s
  | .pnot p f => Sys2Proof.Machine.execPnot p f s
  | .pset p f => Sys2Proof.Machine.execPset p f s
  | .pget p f => Sys2Proof.Machine.execPget p f s
  | .br p f => Sys2Proof.Machine.execBr p f s
  | .brx p f => Sys2Proof.Machine.execBrx p f s
  | .call p f => Sys2Proof.Machine.execCall p f s
  | .ret p => Sys2Proof.Machine.execRet p s
  | .lset p f => Sys2Proof.Machine.execLset p f s
  | .lrun p f => Sys2Proof.Machine.execLrun p f s
  | .rdcr p f => Sys2Proof.Machine.execRdcr p f s
  | .wrcrUivec p f => Sys2Proof.Machine.execWrcrUivec p f s
  | .wrcrUistat p f => Sys2Proof.Machine.execWrcrUistat p f s
  | .trap p f => Sys2Proof.Machine.execTrap p f s
  | .uiret p => Sys2Proof.Machine.execUiret p s
  | .bell p f => Sys2Proof.Machine.execBell p f s
  | .bwait p f => Sys2Proof.Machine.execBwait p f s
  | .btest p f => Sys2Proof.Machine.execBtest p f s
  | .bexcuse p f => Sys2Proof.Machine.execBexcuse p f s
  | .restartMark => Sys2Proof.Machine.execRestartMark s
  | .endBundle => Sys2Proof.Machine.execEndBundle s
  | .quietBegin => Sys2Proof.Machine.execQuietBegin s
  | .quietEnd => Sys2Proof.Machine.execQuietEnd s
  | .regionOverrun => Sys2Proof.Machine.execRegionOverrun s
  | .vnop p => Sys2Proof.Machine.execVnop p s
  | .vmov p f => Sys2Proof.Machine.execVmov p f s
  | .vsel p f => Sys2Proof.Machine.execVsel p f s
  | .vadd p f => Sys2Proof.Machine.execVadd p f s
  | .vsub p f => Sys2Proof.Machine.execVsub p f s
  | .vmul p f => Sys2Proof.Machine.execVmul p f s
  | .vfma p f => Sys2Proof.Machine.execVfma p f s
  | .vfms p f => Sys2Proof.Machine.execVfms p f s
  | .vadds p f => Sys2Proof.Machine.execVadds p f s
  | .vsubs p f => Sys2Proof.Machine.execVsubs p f s
  | .vmulh p f => Sys2Proof.Machine.execVmulh p f s
  | .vmin p f => Sys2Proof.Machine.execVmin p f s
  | .vmax p f => Sys2Proof.Machine.execVmax p f s
  | .vabs p f => Sys2Proof.Machine.execVabs p f s
  | .vneg p f => Sys2Proof.Machine.execVneg p f s
  | .vand p f => Sys2Proof.Machine.execVand p f s
  | .vor p f => Sys2Proof.Machine.execVor p f s
  | .vxor p f => Sys2Proof.Machine.execVxor p f s
  | .vandn p f => Sys2Proof.Machine.execVandn p f s
  | .vshl p f => Sys2Proof.Machine.execVshl p f s
  | .vshr p f => Sys2Proof.Machine.execVshr p f s
  | .vsar p f => Sys2Proof.Machine.execVsar p f s
  | .vcmpeq p f => Sys2Proof.Machine.execVcmpeq p f s
  | .vcmpne p f => Sys2Proof.Machine.execVcmpne p f s
  | .vcmplt p f => Sys2Proof.Machine.execVcmplt p f s
  | .vcmple p f => Sys2Proof.Machine.execVcmple p f s
  | .vcvt p f => Sys2Proof.Machine.execVcvt p f s
  | .vqnt p f => Sys2Proof.Machine.execVqnt p f s
  | .vbscale p f => Sys2Proof.Machine.execVbscale p f s
  | .vdqnt p f => Sys2Proof.Machine.execVdqnt p f s
  | .vredadd p f => Sys2Proof.Machine.execVredadd p f s
  | .vredmax p f => Sys2Proof.Machine.execVredmax p f s
  | .vredmin p f => Sys2Proof.Machine.execVredmin p f s
  | .vpopc p f => Sys2Proof.Machine.execVpopc p f s
  | .vclz p f => Sys2Proof.Machine.execVclz p f s
  | .vexp2 p f => Sys2Proof.Machine.execVexp2 p f s
  | .vrcp p f => Sys2Proof.Machine.execVrcp p f s
  | .vrsq p f => Sys2Proof.Machine.execVrsq p f s
  | .vperm p f => Sys2Proof.Machine.execVperm p f s
  | .vshuf p f => Sys2Proof.Machine.execVshuf p f s
  | .vtrn p f => Sys2Proof.Machine.execVtrn p f s
  | .vbcast p f => Sys2Proof.Machine.execVbcast p f s
  | .vlane p f => Sys2Proof.Machine.execVlane p f s
  | .vrot p f => Sys2Proof.Machine.execVrot p f s
  | .vzip p f => Sys2Proof.Machine.execVzip p f s
  | .vunzip p f => Sys2Proof.Machine.execVunzip p f s
  | .vrule p f => Sys2Proof.Machine.execVrule p f s
  | .mnop p => Sys2Proof.Machine.execMnop p s
  | .mcall p f => Sys2Proof.Machine.execMcall p f s
  | .msetk p f => Sys2Proof.Machine.execMsetk p f s
  | .msetkAll p f => Sys2Proof.Machine.execMsetkAll p f s
  | .mring p f => Sys2Proof.Machine.execMring p f s
  | .madv p f => Sys2Proof.Machine.execMadv p f s
  | .mdrain p f => Sys2Proof.Machine.execMdrain p f s
  | .mwait p => Sys2Proof.Machine.execMwait p s
  | .matrixCommandStart c => Sys2Proof.Machine.execMatrixCommandStart c s
  | .mringExecute c => Sys2Proof.Machine.execMringExecute c s
  | .madvExecute c => Sys2Proof.Machine.execMadvExecute c s
  | .mcallStart c => Sys2Proof.Machine.execMcallStart c s
  | .mdrainExecute c => Sys2Proof.Machine.execMdrainExecute c s
  | .deferredMatrixFault c => Sys2Proof.Machine.execDeferredMatrixFault c s
  | .unop => Sys2Proof.Machine.execUnop s
  | .ufeta k ks off => Sys2Proof.Machine.execUfeta k ks off s
  | .ufetb b => Sys2Proof.Machine.execUfetb b s
  | .umac k ks n b => Sys2Proof.Machine.execUmac k ks n b s
  | .uzacc k ks n => Sys2Proof.Machine.execUzacc k ks n s
  | .usca m sc => Sys2Proof.Machine.execUsca m sc s
  | .uscb m sc => Sys2Proof.Machine.execUscb m sc s
  | .ustep k ks neg w d => Sys2Proof.Machine.execUstep k ks neg w d s
  | .uloop k ks n => Sys2Proof.Machine.execUloop k ks n s
  | .uendl => Sys2Proof.Machine.execUendl s
  | .upopa => Sys2Proof.Machine.execUpopa s
  | .upopb => Sys2Proof.Machine.execUpopb s
  | .usync => Sys2Proof.Machine.execUsync s
  | .uret => Sys2Proof.Machine.execUret s
  | .tadd p f => Sys2Proof.Machine.execTadd p f s
  | .tsub p f => Sys2Proof.Machine.execTsub p f s
  | .tmul p f => Sys2Proof.Machine.execTmul p f s
  | .tmax p f => Sys2Proof.Machine.execTmax p f s
  | .tmin p f => Sys2Proof.Machine.execTmin p f s
  | .tmm p f => Sys2Proof.Machine.execTmm p f s
  | .tred p f => Sys2Proof.Machine.execTred p f s
  | .tcvt p f => Sys2Proof.Machine.execTcvt p f s
  | .tcopy p f => Sys2Proof.Machine.execTcopy p f s
  | .tsmax p f => Sys2Proof.Machine.execTsmax p f s
  | .tact p f => Sys2Proof.Machine.execTact p f s
  | .tgv p f => Sys2Proof.Machine.execTgv p f s
  | .twait p f => Sys2Proof.Machine.execTwait p f s
  | .twhere p f => Sys2Proof.Machine.execTwhere p f s
  | .tallred p f => Sys2Proof.Machine.execTallred p f s
  | .tgather p f => Sys2Proof.Machine.execTgather p f s
  | .tbcast p f => Sys2Proof.Machine.execTbcast p f s
  | .topPlacement t => Sys2Proof.Machine.execTopPlacement t s
  | .topAccept t => Sys2Proof.Machine.execTopAccept t s
  | .tileClaim d w => Sys2Proof.Machine.execTileClaim d w s
  | .tileComplete t n => Sys2Proof.Machine.execTileComplete t n s
  | .topReport t => Sys2Proof.Machine.execTopReport t s
  | .collectiveStep t inp => Sys2Proof.Machine.execCollectiveStep t inp s
  | .digestConfirm t => Sys2Proof.Machine.execDigestConfirm t s
  | .collectiveRetry t disagree => Sys2Proof.Machine.execCollectiveRetry t disagree s
  | .cnop p => Sys2Proof.Machine.execCnop p s
  | .lds p f => Sys2Proof.Machine.execLds p f s
  | .sts p f => Sys2Proof.Machine.execSts p f s
  | .ldvs p f => Sys2Proof.Machine.execLdvs p f s
  | .stvs p f => Sys2Proof.Machine.execStvs p f s
  | .spill p f => Sys2Proof.Machine.execSpill p f s
  | .fill p f => Sys2Proof.Machine.execFill p f s
  | .ld p f => Sys2Proof.Machine.execLd p f s
  | .st p f => Sys2Proof.Machine.execSt p f s
  | .ldv p f => Sys2Proof.Machine.execLdv p f s
  | .stv p f => Sys2Proof.Machine.execStv p f s
  | .gset p f => Sys2Proof.Machine.execGset p f s
  | .dld p f => Sys2Proof.Machine.execDld p f s
  | .lda p f => Sys2Proof.Machine.execLda p f s
  | .stl p f => Sys2Proof.Machine.execStl p f s
  | .fence p f => Sys2Proof.Machine.execFence p f s
  | .mark p => Sys2Proof.Machine.execMark p s
  | .waitv p f => Sys2Proof.Machine.execWaitv p f s
  | .aadd p f => Sys2Proof.Machine.execAadd p f s
  | .amin p f => Sys2Proof.Machine.execAmin p f s
  | .amax p f => Sys2Proof.Machine.execAmax p f s
  | .aminn p f => Sys2Proof.Machine.execAminn p f s
  | .amaxn p f => Sys2Proof.Machine.execAmaxn p f s
  | .aand p f => Sys2Proof.Machine.execAand p f s
  | .aor p f => Sys2Proof.Machine.execAor p f s
  | .axor p f => Sys2Proof.Machine.execAxor p f s
  | .axchg p f => Sys2Proof.Machine.execAxchg p f s
  | .acas p f => Sys2Proof.Machine.execAcas p f s
  | .afadd p f => Sys2Proof.Machine.execAfadd p f s
  | .aswapv p f => Sys2Proof.Machine.execAswapv p f s
  | .cpy p f => Sys2Proof.Machine.execCpy p f s
  | .cpy2 p f => Sys2Proof.Machine.execCpy2 p f s
  | .cpyn p f => Sys2Proof.Machine.execCpyn p f s
  | .cpysum p f => Sys2Proof.Machine.execCpysum p f s
  | .cwait p f => Sys2Proof.Machine.execCwait p f s
  | .cstat p f => Sys2Proof.Machine.execCstat p f s
  | .xlat p f => Sys2Proof.Machine.execXlat p f s
  | .hrel p f => Sys2Proof.Machine.execHrel p f s
  | .htest p f => Sys2Proof.Machine.execHtest p f s
  | .queueSend a store => Sys2Proof.Machine.execQueueSend a store s
  | .replyLands r => Sys2Proof.Machine.execReplyLands r s
  | .homeAccess r => Sys2Proof.Machine.execHomeAccess r s
  | .homeAtomic r => Sys2Proof.Machine.execHomeAtomic r s
  | .waitvRetry c => Sys2Proof.Machine.execWaitvRetry c s
  | .balloonTake d => Sys2Proof.Machine.execBalloonTake d s
  | .heldWriteAbandon d => Sys2Proof.Machine.execHeldWriteAbandon d s
  | .refreshManagement d b => Sys2Proof.Machine.execRefreshManagement d b s
  | .peerRequest q => Sys2Proof.Machine.execPeerRequest q s
  | .chimelinkLinkLoss k => Sys2Proof.Machine.execChimelinkLinkLoss k s
  | .lateFreeze g => Sys2Proof.Machine.execLateFreeze g s
  | .freezeRelease g => Sys2Proof.Machine.execFreezeRelease g s
  | .freezeTimeout g => Sys2Proof.Machine.execFreezeTimeout g s
  | .powerFreeze c => Sys2Proof.Machine.execPowerFreeze c s
  | .copyCommandStart c e => Sys2Proof.Machine.execCopyCommandStart c e s
  | .copyChunk c e => Sys2Proof.Machine.execCopyChunk c e s
  | .copyReport c e => Sys2Proof.Machine.execCopyReport c e s
  | .tlbFillLands c k => Sys2Proof.Machine.execTlbFillLands c k s
  | .leaseRecall pg cl => Sys2Proof.Machine.execLeaseRecall pg cl s
  | .recallComplete pg => Sys2Proof.Machine.execRecallComplete pg s
  | .userInterruptEntry c => Sys2Proof.Machine.execUserInterruptEntry c s
  | .trapReport c => Sys2Proof.Machine.execTrapReport c s
  | .rollback c => Sys2Proof.Machine.execRollback c s
  | .ibufReload c => Sys2Proof.Machine.execIbufReload c s
  | .lanternLoad n d => Sys2Proof.Machine.execLanternLoad n d s
  | .lanternSegmentEnd pr => Sys2Proof.Machine.execLanternSegmentEnd pr s
  | .lanternHalt pr => Sys2Proof.Machine.execLanternHalt pr s
  | .lanternFault pr => Sys2Proof.Machine.execLanternFault pr s
  | .lanternFreeze pr => Sys2Proof.Machine.execLanternFreeze pr s
  | .bellArrival c b => Sys2Proof.Machine.execBellArrival c b s
  | .bellRelease n b => Sys2Proof.Machine.execBellRelease n b s
  | .post q => Sys2Proof.Machine.execPost q s
  | .arbitration => Sys2Proof.Machine.execArbitration s
  | .commandQueuePromotion q => Sys2Proof.Machine.execCommandQueuePromotion q s
  | .leaderHandover q => Sys2Proof.Machine.execLeaderHandover q s
  | .launch h f => Sys2Proof.Machine.execLaunch h f s
  | .launchResume h f => Sys2Proof.Machine.execLaunchResume h f s
  | .dispatchRelease n => Sys2Proof.Machine.execDispatchRelease n s
  | .coreFree c => Sys2Proof.Machine.execCoreFree c s
  | .launchComplete n => Sys2Proof.Machine.execLaunchComplete n s
  | .top h f => Sys2Proof.Machine.execTop h f s
  | .copy h f => Sys2Proof.Machine.execCopy h f s
  | .waitev h f => Sys2Proof.Machine.execWaitev h f s
  | .signal h f => Sys2Proof.Machine.execSignal h f s
  | .mapPages h f => Sys2Proof.Machine.execMapPages h f s
  | .unmap h f => Sys2Proof.Machine.execUnmap h f s
  | .migrate h f => Sys2Proof.Machine.execMigrate h f s
  | .balloonDonate h f => Sys2Proof.Machine.execBalloonDonate h f s
  | .balloonReclaim h f => Sys2Proof.Machine.execBalloonReclaim h f s
  | .setmodeRisePool h f => Sys2Proof.Machine.execSetmodeRisePool h f s
  | .setmodeCoalesce h f => Sys2Proof.Machine.execSetmodeCoalesce h f s
  | .setmodePowerLimit h f => Sys2Proof.Machine.execSetmodePowerLimit h f s
  | .fenceCommand h => Sys2Proof.Machine.execFenceCommand h s
  | .complete h => Sys2Proof.Machine.execComplete h s
  | .preempt h f => Sys2Proof.Machine.execPreempt h f s
  | .coreStop c => Sys2Proof.Machine.execCoreStop c s
  | .contextSave n sp => Sys2Proof.Machine.execContextSave n sp s
  | .completionRecord q sl => Sys2Proof.Machine.execCompletionRecord q sl s
  | .coalescingWindowEnd q => Sys2Proof.Machine.execCoalescingWindowEnd q s
  | .interruptMessage => Sys2Proof.Machine.execInterruptMessage s
  | .notificationPost => Sys2Proof.Machine.execNotificationPost s
  | .hostWindowRead pa n => Sys2Proof.Machine.execHostWindowRead pa n s
  | .hostWindowWrite pa bs => Sys2Proof.Machine.execHostWindowWrite pa bs s
  | .patchaddrWrite v => Sys2Proof.Machine.execPatchaddrWrite v s
  | .attaddrWrite v => Sys2Proof.Machine.execAttaddrWrite v s
  | .bootctlGo v => Sys2Proof.Machine.execBootctlGo v s
  | .injctlWrite c v => Sys2Proof.Machine.execInjctlWrite c v s
  | .dstatClear d v => Sys2Proof.Machine.execDstatClear d v s
  | .monctlWrite m v => Sys2Proof.Machine.execMonctlWrite m v s
  | .monitorSample m v => Sys2Proof.Machine.execMonitorSample m v s
  | .registerWrite pa v => Sys2Proof.Machine.execRegisterWrite pa v s
  | .panelReset b => Sys2Proof.Machine.execPanelReset b s
  | .spireDieReset sp => Sys2Proof.Machine.execSpireDieReset sp s
  | .routerReset site => Sys2Proof.Machine.execRouterReset site s
  | .chimelinkLinkReturn k => Sys2Proof.Machine.execChimelinkLinkReturn k s
  | .uncorrectableEccError u => Sys2Proof.Machine.execUncorrectableEccError u s
  | .notificationRdptrWrite v => Sys2Proof.Machine.execNotificationRdptrWrite v s
  | .coreRetirement c => Sys2Proof.Machine.execCoreRetirement c s
  | .eventCounterHostWrite pa v => Sys2Proof.Machine.execEventCounterHostWrite pa v s

end Sys2Proof.Machine
end

