-- ==== Sys2Proof/Machine/Issue.lean ====
section
/-! DEFINITION. The issue of a bundle: fetch and decoding (R63, R77, R80, R303), the order of issue (R79), holds (R56),
quiet regions (R108), full queues (R235, R257), current weights (R370), and what must come about before the clock goes on. `ex` is the
meaning of an instruction. -/

namespace Sys2Proof.Machine

def outState (o : Out) (s : State) : State := match o with | .next s' => s' | _ => s

/-! ## Whether a bundle issues now -/

/-- No freeze, no late result and no power-freeze cycle keeps the group of an agent from issuing. -/
def groupClear (s : State) (a : Agent) : Bool :=
  !s.frozen a && (lateNow s (s.groupOf a)).isEmpty && (match a with | .core c => !powerAsked s c | _ => true)

/-- A report that must be made before the clock goes on: at completion, in deterministic mode at the deadline (R244). -/
def copyReports (k : Core) : Bool :=
  [k.eng0, k.eng1].any (fun x =>
    match x.queue with | r :: _ => r.finished && (!k.detMode || r.deadline ≤ k.seq.vcc) | [] => false)

/-- The engines and the T-ops of a deterministic core have shown what its bundle may see of them in this cycle (R248, R278). -/
def engineSteps (s : State) (c : Nat) : Bool :=
  let k := s.core c
  k.detMode && (copyReports k || copyDue s c 0 || copyDue s c 1 ||
    s.tops.any (fun t => t.2.from_ == .core c && t.2.launch == k.launch && reportDue s t.2))

/-- A core issues: at its cycle, with no interrupt, stop, matrix fault, bell release, report or chunk due before its bundle. -/
def coreIssues (s : State) (c : Nat) : Bool :=
  let k := s.core c
  (match k.mode with | .run => true | _ => false) && k.waits.isEmpty && k.seq.nextAt ≤ k.seq.vcc &&
    groupClear s (.core c) && !intReady k && !stopReady k && !(stopOpen k && launchEnding s k) && k.mx.fault.isNone &&
    !(k.detMode && bellPending s) && !engineSteps s c

def threadIssues (s : State) (a : Agent) (halted : Bool) : Bool :=
  pairRuns (s.pair (pairOf a)) && !halted && (s.seq a).nextAt ≤ (s.seq a).vcc && groupClear s a

def mayIssue (s : State) (a : Agent) : Bool :=
  match a with
  | .core c => coreIssues s c
  | .lanA p => threadIssues s a (s.pair p).haltA
  | .lanE p => threadIssues s a ((s.pair p).haltE || (s.pair p).segment.isSome)

/-! ## Fetch -/

/-- The record of an IBUF_ERROR (R377 kind 6). -/
def frecIbuf (pos : Nat) (entry : Option Nat) : FRec :=
  { FRec.none with kind := 6, r0 := BitVec.ofNat 64 (pos + (if entry.isSome then 2 ^ 24 else 0)),
                   r1 := BitVec.ofNat 64 (entry.getD 0) }

def slotFaults (frec : FRec) (l : SlotFaults) : List SlotFault :=
  l.map (fun x => { slot := x.1, cause := x.2, frec := if frec.kind == 6 then frec else { frec with slot := x.1 } })

/-- What restart and quiet bits raise beside R59: a mark in a handler (R379), either field in a lantern (R303). -/
def marksBad (s : State) (a : Agent) (h : Hdr) : Bool :=
  match a with
  | .core c => h.restart && inHandler (s.core c)
  | _ => h.restart || h.quiet != 0

def regionOpen (s : State) (a : Agent) : Bool := match a with | .core c => (s.core c).quiet.isSome | _ => false

def heldAt (k : Seq) (pos : Pos) : Option Instr := (k.holds.find? (fun x => x.1 == pos)).map (·.2)

/-- The decoding of the bits fetched, with its faults. -/
def decodeAt (s : State) (a : Agent) (n : Nat) (entry : Option Nat) : Except (List SlotFault) Bundle :=
  let k := s.seq a
  let h := unHdr (n / 2 ^ 352)
  let ibuf := slotFaults (frecIbuf k.pos entry) (allPos.map (fun pos => (pos, causeIbufError)))
  let bad := match a, entry with | .core c, some e => (s.core c).badDict.contains e | _, _ => false
  if bad || bundleCheck n != n % 65536 then .error ibuf
  else if marksBad s a h then
    .error (slotFaults FRec.none ((allPos.filter (activePos h (heldAt k))).map (fun pos => (pos, causeIllegalBundle))))
  else
    match decodeBundle (threadOf a) (regionOpen s a) (heldAt k) n with
    | .ok b => .ok b
    | .error l => .error (slotFaults FRec.none l)

/-- The bundle at the position of an agent with the next sequential position, or its faults (R63, R77). -/
def fetchBundle (s : State) (a : Agent) : Except (List SlotFault) (Nat × Bundle) :=
  let k := s.seq a
  match fetchAt k.code k.dict k.pos with
  | none => .error (oneFault .sc causeIllegalIndex FRec.none)
  | some (n, next, entry) => (decodeAt s a n entry).map (fun b => (next, b))

/-! ## Weights (R370) -/

def vecWeight (ty : BitVec 4) : Nat := if isFloat ty then 10 else 8

/-- The weight of a true slot; VNOP is never true work (R136). -/
def slotWeight (i : Instr) : Nat :=
  match i with
  | .vnop _ => 1
  | .mul .. | .mulh .. | .mulhn .. => 4
  | .div .. | .divn .. | .rem .. | .remn .. => 6
  | .vadd _ f | .vsub _ f | .vmul _ f | .vmin _ f | .vmax _ f | .vabs _ f | .vneg _ f => vecWeight f.ty
  | .vadds .. | .vsubs .. | .vmulh .. | .vcvt .. | .vqnt .. | .vbscale .. | .vdqnt .. | .vredadd .. | .vredmax ..
  | .vredmin .. => 8
  | .vfma _ f | .vfms _ f => if isFloat f.ty then 12 else 8
  | .vexp2 .. | .vrcp .. | .vrsq .. => 14
  | .ldvs .. | .stvs .. => 4
  | .lds .. | .sts .. | .spill .. | .fill .. => 3
  | _ =>
    match (preOf i).map (fun p => p.pos) with
    | some Pos.va => 4
    | some Pos.vb => 4
    | some Pos.mx => 1
    | _ => 2

def bundleWeight (s : State) (act : List (Pos × Instr)) : Nat :=
  (act.map (fun x => if (s.latched x.1).isSome then slotWeight x.2 else 1)).foldl (· + ·) 0

/-! ## Holds (R56, R57) -/

def isNopSlot : Instr → Bool
  | .nop _ => true
  | .vnop _ => true
  | .mnop _ => true
  | .cnop _ => true
  | _ => false

def keepsHold (i : Instr) : Bool := !isNopSlot i && ((preOf i).map (·.hold)).getD false

def newHolds (old issued : List (Pos × Instr)) : List (Pos × Instr) :=
  old.filter (fun x => !issued.any (fun y => y.1 == x.1)) ++ issued.filter (fun y => keepsHold y.2)

/-! ## Issue -/

def modAgentCore (s : State) (a : Agent) (f : Core → Core) : State := match a with | .core c => s.modCore c f | _ => s

/-- The slots of a bundle in slot order: those it issues and those it repeats. -/
def activeSlots (k : Seq) (b : Bundle) : List (Pos × Instr) :=
  allPos.filterMap (fun pos => (activeInstr b.slots (heldAt k) pos).map (fun i => (pos, i)))

def runPhase (ex : Instr → State → Out) (ph : Phase) (act : List (Pos × Instr)) (s : State) : State :=
  act.foldl (fun s x => outState (ex x.2 s) s) { s with cur := { s.cur with phase := ph } }

/-- The marks that come before a bundle's slots. -/
def preMarks (ex : Instr → State → Out) (a : Agent) (b : Bundle) (mark : Bool) (s : State) : State :=
  let s := if mark then outState (ex .restartMark s) s else s
  let s := if b.hdr.quiet.getLsbD 0 then outState (ex .quietBegin s) s else s
  let s := modAgentCore s a (fun k => { k with quiet := k.quiet.map (· + 1) })
  if b.hdr.fin then (match a with | .core c => releaseGated c s | _ => s) else s

/-- The position and the cycle of the next bundle, before any transfer. -/
def advance (a : Agent) (next : Nat) (s : State) : State :=
  s.modSeq a (fun k => { k with pos := next, nextAt := k.vcc + 1 })

def bumpSerial (a : Agent) (w : Nat) (s : State) : State :=
  match a with
  | .core c => s.modCore c (fun k => { k with nextSer := k.nextSer + 1, nowW := k.nowW + w, ibufAt := none })
  | .lanA p => s.modPair p (fun k => { k with nextSer := k.nextSer + 1, nowW := k.nowW + w })
  | .lanE p => s.modPair p (fun k => { k with nextSer := k.nextSer + 1, nowW := k.nowW + w })

/-- What follows the slots: loop-back, holds, the region's end, END, and TRAP last. -/
def postMarks (ex : Instr → State → Out) (a : Agent) (b : Bundle) (act : List (Pos × Instr)) (s : State) : State :=
  let w := bundleWeight s act
  let s := { s with cur := { s.cur with phase := .whole } }
  let s := loopBack s
  let s := s.modSeq a (fun k => { k with holds := newHolds k.holds b.slots })
  let s := if b.hdr.quiet.getLsbD 1 then outState (ex .quietEnd s) s else s
  let s := if b.hdr.fin then outState (ex .endBundle s) s else s
  let s := finishTrap (bumpSerial a w s)
  match a with
  | .core c => uiretDone c s
  | _ => s

/-- The places of the shared tables that a waiting bundle needs: its own and those of the gated stores it releases. -/
def needOf (s : State) (a : Agent) (released : Bool) : List Nat :=
  s.cur.took ++ (if released then List.replicate (s.gatedOf a).length 3 else [])

/-- A bundle that finds a queue full waits; its group stands frozen until there is room (R235, R257). -/
def fullFreeze (s : State) (a : Agent) (need : List Nat) : State :=
  { s with freezes := s.freezes ++
    [{ group := s.groupOf a, why := .full a need, at_ := (s.seq a).vcc, since := s.now, overAt := none }] }

/-- A decoded bundle issues (R79): reads, reservations, then its effects; or it traps, waits, or freezes. -/
def issueBundle (ex : Instr → State → Out) (a : Agent) (next : Nat) (b : Bundle) (s : State) : State :=
  let k := s.seq a
  let act := activeSlots k b
  let mark := b.hdr.restart || (match a with | .core c => (s.core c).markNext | _ => false)
  let s0 := { s with cur := { s.cur with next := next, scope := b.hdr.scope.toNat, fin := b.hdr.fin } }
  let s1 := preMarks ex a b mark s0
  let s2 := runPhase ex .reserve act (runPhase ex .read act (advance a next s1))
  if s2.cur.waits then { s with cur := Cur.fresh }.modSeq a (fun k => { k with nextAt := k.vcc + 1 })
  else if !s2.cur.faults.isEmpty then
    takeTrap (if mark then s1 else s0) a s2.cur.faults k.pos
  else if s2.cur.full || queueCap a < (s2.stqOf a).length then
    fullFreeze { s with cur := Cur.fresh } a (needOf { s with cur := s2.cur } a (mark || b.hdr.fin))
  else postMarks ex a b act (runPhase ex .commit act s2)

/-- The fault that the next bundle boundary of a core takes. -/
def nextAckFault (s : State) (a : Agent) : Option SlotFault :=
  match a with
  | .core c => (s.core c).ackFaults.head?
  | _ => none

/-- Whether a bundle would be the 257th of its quiet region. -/
def overruns (s : State) (a : Agent) : Bool :=
  match a with
  | .core c => (match (s.core c).quiet with | some n => 256 ≤ n | none => false)
  | _ => false

/-- An agent's turn: its bundle issues where it may. A bundle beyond the end of a nest (R126) raises LOOP_FAULT before anything
else that it would raise, the overrun of its quiet region among it; the spec gives no order (DESIGN CHOICE). -/
def issue (ex : Instr → State → Out) (a : Agent) (s : State) : State :=
  if !mayIssue s a then s
  else
    let s := settle a s
    let pos := (s.seq a).pos
    match nextAckFault s a with
    | some f =>
      takeTrap (modAgentCore s a (fun k => { k with ackFaults := k.ackFaults.drop 1 })) a (oneFault f.slot f.cause f.frec) pos
    | none =>
      let s := { s with cur := { Cur.fresh with agent := a, pos := pos } }
      match fetchBundle s a with
      | .error fs => takeTrap s a fs pos
      | .ok (next, b) =>
        if beyondEnd s pos then takeTrap s a (oneFault .sc cLoopFault FRec.none) pos
        else if overruns s a then outState (ex .regionOverrun s) s
        else issueBundle ex a next b s

/-! ## Turns -/

/-- What must still come about before the clock may go on. -/
def matrixDue (s : State) (c : Nat) : Bool :=
  let x := s.mx c
  if !x.running then mxReady s c && !x.queue.isEmpty
  else
    match x.queue.head? with
    | some (.mdrain ..) => drainReady s c
    | some (.mcall ..) =>
      (match microAt x, x.mseq with
       | some i, some m => microFires s c i m
       | _, none => mxReady s c
       | _, _ => false)
    | some _ => mxReady s c
    | none => false

/-- A queue head of a deterministic agent that may be sent. -/
def sendDue (s : State) (a : Agent) : Bool :=
  (match s.ldqOf a with | x :: _ => sendable s a false x | [] => false) ||
  (match s.stqOf a with | x :: _ => sendable s a true x | [] => false)

/-- What a core that no freeze stops does before the clock goes on. -/
def coreDue (s : State) (c : Nat) : Bool :=
  let k := s.core c
  coreRuns k && !s.frozen (.core c) &&
    (mayIssue s (.core c) || matrixDue s c || intReady k || stopReady k || (k.mx.fault.isSome && atBoundary s c) ||
     copyDue s c 0 || copyDue s c 1 || (k.detMode && sendDue s (.core c)) ||
     (match k.mode with
      | .roll _ => rollIdle s c || k.mx.fault.isSome
      | .run => (retryDue k).isSome
      | _ => false))

/-- What comes about at a core whatever stops it: reports, fills that land, a reload, the power-freeze cycle that stands before its VCC
(R334, R372, R386). -/
def coreForced (s : State) (c : Nat) : Bool :=
  let k := s.core c
  copyReports k || k.fills.any (fillDue s c) || reloadDue s c || (coreRuns k && powerAsked s c)

def pairDue (s : State) (p : Nat) : Bool :=
  pairRuns (s.pair p) && !s.frozen (.lanA p) &&
    (mayIssue s (.lanA p) || mayIssue s (.lanE p) || segmentReady s p || ((s.pair p).detMode && sendDue s (.lanA p)))

/-- A T-op's step that is due: its report, its placement, its entry at its home (R274, R275, R278). -/
def topDue (s : State) (x : Nat × Top) : Bool := reportDue s x.2 || placementDue s x.1 x.2 || acceptDue s x.1 x.2

/-- The turn in which a write that waits at a dome is tried again. -/
def serveWaiting (w : Writer) (s : State) : State :=
  match w with
  | .access id => serveReq id s
  | .copy c e => (match (s.eng c e).left with | o :: _ => performLeft c e o s | [] => copyChunk c e s)
  | .tile n k => if (look s.tops n).any (fun t => isCollective t.op) then digestConfirm n s else tileComplete n k s
  | .firm a => if s.fw.attJobs.head?.any (fun v => v.toNat == a) then attReport s else notificationPost s
  | .command q slot =>
    match s.runOf q slot with
    | some r =>
      if r.done.isSome then completionRecord q slot s
      else (match r.instr with
        | .copy h f => copyCommand h f s
        | .signal h f => signalCommand h f s
        | .migrate h f => migrateCommand h f s
        | _ =>
          (match s.launches.find? (fun x => x.2.hdr.q == q && x.2.hdr.slot == slot) with
           | some x => (spiresOf x.2).foldl (fun s sp => contextSave x.1 sp s) s
           | none => s))
    | none => arbitration s

/-- The oldest write that waits at a dome for units is performed as soon as the pool covers it (R203, R204). -/
def waitingDue (s : State) (x : Nat × Dome) : Bool :=
  match x.2.waiting with
  | w :: _ => w.need ≤ x.2.poolFree && ((serveWaiting w.who s).dome x.1).waiting != x.2.waiting
  | [] => false

/-- What is due at a dome: an abandonment, a balloon take, a write that its units have come to, a claim (R203 to R205, R274). -/
def homeDue (s : State) (x : Nat × Dome) : Bool := abandonDue s x.2 || takeDue s x || waitingDue s x || claimDue s x.1

/-- The reply of a met WAITV lands before the VCC at which its core resumes (R357). -/
def wakeDue (s : State) (r : Reply) : Bool :=
  match r.acc.src with
  | .core c => r.resumeAt != 0 && (s.core c).detMode && r.resumeAt ≤ s.vccOf c + 1
  | _ => false

/-- The interrupt of a window that has ended (R327). -/
def windowDue (s : State) (k : CmdQueue) : Bool := k.window.any (· ≤ s.now)

/-- What must come about elsewhere before the clock goes on. -/
def panelDue (s : State) : Bool :=
  s.tops.any (topDue s) || s.domes.any (homeDue s) || s.reqs.any (serveDue s) || s.reps.any (wakeDue s) ||
    s.queues.any (fun x => windowDue s x.2) || samplesDue s

/-- The freezes whose change is due: one whose reason is over, one that the watchdog ends (R355), one of a pair's service (R311). -/
def freezeDue (s : State) : Bool :=
  s.freezes.any (fun f => endFreeze s f != some f || freezeOld s f) ||
    (servingPairs s).any (fun p => !pairRuns (s.pair p) && (lateTile s p).isSome)

/-- Every group that has a member. -/
def allGroups (s : State) : List Group :=
  ((s.cores.filter (fun x => coreRuns x.2)).map (fun x => s.groupOf (.core x.1)) ++
   (s.pairs.filter (fun x => pairRuns x.2)).map (fun x => pairGroup x.2 x.1)).eraseDups

/-- The clock may go on: everything that is due in this cycle has come about. -/
def tickReady (s : State) : Bool :=
  !(s.cores.any (fun x => coreDue s x.1 || coreForced s x.1)) && !(s.pairs.any (fun x => pairDue s x.1)) && !bellPending s &&
    !freezeDue s && !panelDue s && (allGroups s).all (fun g => (lateNow s g).isEmpty)

/-- A step of an agent that is no slot of a bundle, no mark and no microinstruction. -/
def isEvent (i : Instr) : Bool :=
  i.wf && (preOf i).isNone &&
    (match i with
     | .restartMark => false
     | .endBundle => false
     | .quietBegin => false
     | .quietEnd => false
     | .regionOverrun => false
     | i => encodeMicro i == 2 ^ 32)

/-- The microinstruction of a core's turn. -/
def microTurn (ex : Instr → State → Out) (c : Nat) (s : State) : Out :=
  match microAt (s.mx c) with
  | some i => ex i { s with cur := { Cur.fresh with agent := .core c } }
  | none => .next s

/-- One turn of the machine. -/
def runTurn (ex : Instr → State → Out) (t : Turn) (s : State) : Out :=
  match t with
  | .bundle a => if agentOk a then .next (issue ex a s) else .fault .noSuchAgent
  | .micro c => if c < 8192 then microTurn ex c s else .fault .noSuchAgent
  | .event i => if isEvent i then ex i s else .fault .noSuchAgent
  | .cycle => .next (if tickReady s then firmTick (tick s) else s)

/-- The machine's next turn: from the agenda, or as the agents interleave. -/
def nextTurn (s : State) : Turn × State :=
  match s.agenda with
  | t :: l => (t, { s with agenda := l })
  | [] => (Config.chooseTurn s.turns, { s with turns := s.turns + 1 })

end Sys2Proof.Machine
end

