-- ==== Sys2Proof/Machine/Step.lean ====
section
/-! DEFINITION. The step of the machine, and where it fetches its next instruction. -/

namespace Sys2Proof.Machine

/-- One turn: who acts next, and what it does. -/
def step (s : State) : Host.Outcome State Fault Refusal :=
  let n := nextTurn s
  runTurn exec n.1 n.2

/-- A matrix unit that stands at microprogram word 384 of its core, routine 64, its cycle come, with both rings configured:
ring 0 on AMEM and ring 1 on WMEM, one tile of one row of F32 in each. -/
def placedMatrix (w : BitVec 32) : Matrix :=
  { Matrix.empty with
    queue := [.mcall 64 0 1 []]
    issued := 1
    running := true
    mseq := some { routine := 64, ra := 0, rb := 1, ks := [], pos := 0, loops := [], acur := 0, ccur := 0, ta := 0, tb := 0,
                   touchA := false, touchB := false, modeA := false, scaleA := 0, modeB := false, scaleB := 0,
                   bank0 := none, bank1 := none, wrEnd := 0 }
    rings := [(0, { conf := some { sp := 1, fmt := 0, klen := 1, trows := 1, ntile := 1, base := 0 }, head := 0, tail := 1 }),
              (1, { conf := some { sp := 2, fmt := 0, klen := 1, trows := 1, ntile := 1, base := 0 }, head := 0, tail := 1 })]
    user := [(64, [w])] }

/-- The state with a table word where the next step fetches: the only words of the table are the 32-bit microinstructions, so
it stands in the microprogram store of core 0, whose microsequencer has the next turn. -/
def State.withFetchWord (s : State) (nbits w : Nat) : State :=
  if nbits == 32 then
    { s.modCore 0 (fun k => { k with mode := .run, mx := placedMatrix (BitVec.ofNat 32 w) }) with
      agenda := .micro 0 :: s.agenda }
  else s

end Sys2Proof.Machine
end

