-- ==== Sys2Proof/Safety.lean ====
section
/-! DEFINITION. The terms in which claims are made: a run that goes on, what a slot instruction needs to run by itself, what a
memory and a queue keep, and what is the same in two states. -/

namespace Sys2Proof.Machine

/-- A step that goes on: neither a fault nor a refusal. -/
def goesOn (s : State) : Prop := ∃ t, step s = .next t

/-- No bundle is in progress: a slot instruction taken in such a state runs by itself, all phases of R79 in one step. -/
abbrev State.Alone (s : State) : Prop :=
  s.cur.phase = .whole ∧ s.cur.vals = [] ∧ s.cur.ids = [] ∧ s.cur.faults = [] ∧ s.cur.took = [] ∧
    s.cur.waits = false ∧ s.cur.full = false ∧ s.cur.trapAfter = none

/-- The sources of a slot can be read in field order: they give the values vs and leave the state t (R79, R102, R133). -/
abbrev ReadsTo (p : Pre) (srcs : List Src) (s : State) (vs : List V512) (t : State) : Prop :=
  readSrcs s.cur.agent p.pos srcs s [] = .ok (vs, t)

/-- The canonical form of the byte store. -/
abbrev State.memOk (s : State) : Prop := s.mem.wf = true

/-- Every byte of memory reads as before, and the marks of poisoned blocks and uncorrectable units are as before. -/
abbrev sameBytes (s t : State) : Prop :=
  (∀ a, t.mem.get a = s.mem.get a) ∧ t.poison = s.poison ∧ t.bad = s.bad

/-- Every byte outside [lo, lo + n) reads as before. -/
abbrev sameOutside (s t : State) (lo n : Nat) : Prop := ∀ a, a < lo ∨ lo + n ≤ a → t.mem.get a = s.mem.get a

/-- Parts of a state that no slot instruction changes: the clock, the firmware, the panel's services, homes and queues. -/
abbrev samePanel (s t : State) : Prop :=
  t.now = s.now ∧ t.timeBase = s.timeBase ∧ t.turns = s.turns ∧ t.agenda = s.agenda ∧ t.fw = s.fw ∧
    t.clusters = s.clusters ∧ t.domes = s.domes ∧ t.ptes = s.ptes ∧ t.queues = s.queues ∧
    t.irqs = s.irqs ∧ t.notes = s.notes

end Sys2Proof.Machine
end

