-- ==== Sys2Proof/Certificates/Slice0/Obligations.lean ====
section
/-! DEFINITION. The statements about the model. A statement about one slot instruction takes it by itself, in a state in
which no bundle is in progress (`Alone`); the step statements say how a bundle runs its slots. Where a statement rests on a
choice of the model, its docstring names the log entry. -/

open Sys2Proof Sys2Proof.Machine

namespace Sys2Proof.Claims

/-! ## Words shared by the statements -/

/-- A slot that runs by itself: it is true, and its sources give the values vs and leave the state t. -/
abbrev Ready (p : Pre) (lane : Nat) (srcs : List Src) (s : State) (vs : List V512) (t : State) : Prop :=
  s.Alone ∧ slotTrue p lane s = true ∧ ReadsTo p srcs s vs t

/-- Where queue q has room in t, the instruction answers a next state: t with v pushed into q, due at a cycle. -/
abbrev Pushes (i : Instr) (s t : State) (q : QName) (due : Nat) (v : V512) : Prop :=
  ∀ id u, reserve t s.cur.agent q due = some (id, u) → exec i s = .next (landEntry u s.cur.agent q id v none)

/-- The scalar queue that a field names. -/
abbrev xq (s : State) (x : BitVec 6) : QName := s.xq s.cur.agent x.toNat

/-- The low w bits of a value read, as a number. -/
abbrev low (w : Nat) (v : V512) : Nat := v.toNat % 2 ^ 64 % 2 ^ w

/-- A three-operand row of R113: its latency, whether its result is sign-extended, and its result. -/
structure S3Row where
  ins : Pre → FmtS3 → Instr
  lat : Nat
  sgn : Bool
  val : Nat → Nat → Nat → Int

/-- The two-source rows of R113 and R114, at width w on operands of w bits. -/
def s3Rows : List S3Row :=
  [⟨.add, 1, true, fun _ a b => a + b⟩,
   ⟨.sub, 1, true, fun _ a b => a - b⟩,
   ⟨.mul, 3, true, fun _ a b => a * b⟩,
   ⟨.mulh, 3, true, fun w a b => asInt true w a * asInt true w b / 2 ^ w⟩,
   ⟨.mulhn, 3, false, fun w a b => a * b / 2 ^ w⟩,
   ⟨.div, 20, true, fun w a b => if b = 0 then -1 else (asInt true w a).tdiv (asInt true w b)⟩,
   ⟨.divn, 20, false, fun w a b => if b = 0 then 2 ^ w - 1 else (a / b : Nat)⟩,
   ⟨.rem, 20, true, fun w a b => if b = 0 then asInt true w a else (asInt true w a).tmod (asInt true w b)⟩,
   ⟨.remn, 20, false, fun _ a b => if b = 0 then a else (a % b : Nat)⟩,
   ⟨.min, 1, true, fun w a b => if asInt true w a ≤ asInt true w b then asInt true w a else asInt true w b⟩,
   ⟨.max, 1, true, fun w a b => if asInt true w a ≤ asInt true w b then asInt true w b else asInt true w a⟩,
   ⟨.minn, 1, false, fun _ a b => if a ≤ b then a else b⟩,
   ⟨.maxn, 1, false, fun _ a b => if a ≤ b then b else a⟩,
   ⟨.and, 1, false, fun _ a b => (a &&& b : Nat)⟩,
   ⟨.or, 1, false, fun _ a b => (a ||| b : Nat)⟩,
   ⟨.xor, 1, false, fun _ a b => (a ^^^ b : Nat)⟩,
   ⟨.andn, 1, false, fun w a b => (a &&& (2 ^ w - 1 - b) : Nat)⟩,
   ⟨.shl, 1, false, fun w a b => a * 2 ^ (b % w)⟩,
   ⟨.shr, 1, false, fun w a b => (a / 2 ^ (b % w) : Nat)⟩,
   ⟨.sar, 1, true, fun w a b => asInt true w a / 2 ^ (b % w)⟩,
   ⟨.ror, 1, false, fun w a b => (a / 2 ^ (b % w) + a % 2 ^ (b % w) * 2 ^ (w - b % w) : Nat)⟩]

/-- A one-source row of R112 and R113. -/
structure S1Row where
  ins : Pre → FmtS3 → Instr
  sgn : Bool
  val : Nat → Nat → Int

def s1Rows : List S1Row :=
  [⟨.abs, true, fun w a => (asInt true w a).natAbs⟩,
   ⟨.clz, false, fun w a => clzN w a⟩,
   ⟨.ctz, false, fun w a => ctzN w a⟩,
   ⟨.popc, false, fun w a => popcN a w⟩,
   ⟨.mov, false, fun _ a => a⟩]

/-- An immediate row of R115. -/
structure SIRow where
  ins : Pre → FmtSI → Instr
  sgn : Bool
  val : Nat → Nat → Nat → Int

def siRows : List SIRow :=
  [⟨.addi, true, fun _ a i => a + i⟩,
   ⟨.andi, false, fun _ a i => (a &&& i : Nat)⟩,
   ⟨.ori, false, fun _ a i => (a ||| i : Nat)⟩,
   ⟨.xori, false, fun _ a i => (a ^^^ i : Nat)⟩,
   ⟨.shli, false, fun w a i => a * 2 ^ (i % w)⟩,
   ⟨.shri, false, fun w a i => (a / 2 ^ (i % w) : Nat)⟩,
   ⟨.sari, true, fun w a i => asInt true w a / 2 ^ (i % w)⟩]

/-- A compare row of R116. -/
structure SQRow where
  ins : Pre → FmtSQ → Instr
  rel : Nat → Nat → Nat → Prop

def sqRows : List SQRow :=
  [⟨.cmpeq, fun _ a b => a = b⟩,
   ⟨.cmpne, fun _ a b => a ≠ b⟩,
   ⟨.cmplt, fun w a b => asInt true w a < asInt true w b⟩,
   ⟨.cmple, fun w a b => asInt true w a ≤ asInt true w b⟩,
   ⟨.cmpltn, fun _ a b => a < b⟩,
   ⟨.cmplen, fun _ a b => a ≤ b⟩]

/-- A predicate form with two sources (R117). -/
structure SPRow where
  ins : Pre → FmtSP → Instr
  val : W64 → W64 → W64

def spRows : List SPRow :=
  [⟨.pand, fun a b => a &&& b⟩, ⟨.por, fun a b => a ||| b⟩, ⟨.pxor, fun a b => a ^^^ b⟩, ⟨.pnot, fun a _ => ~~~a⟩]

/-- A plain-register write of the bundle at hand: due at a cycle, with its value (R100). -/
abbrev plainWrite (s : State) (p : Pre) (due : Nat) (w : RegWr) : PendWr :=
  { id := 0, due := due, wr := w, ready := true, ser := s.serial, slot := p.pos, fill := none }

/-- The instruction answers a next state: t with one plain-register write on its way. -/
abbrev Writes (i : Instr) (p : Pre) (s t : State) (due : Nat) (w : RegWr) : Prop :=
  exec i s = .next (schedule t s.cur.agent (plainWrite s p due w))

end Sys2Proof.Claims

open Sys2Proof.Claims

/-! ## Scalar instructions -/

/-- R113, R114: a two-source instruction computes its w-bit result, extends it and pushes it after its latency. -/
def Sys2Proof.Claims.ScalarTwoSourcePushesResult : Prop :=
  ∀ r ∈ s3Rows, ∀ (p : Pre) (f : FmtS3) (s t : State) (a b : V512),
    Ready p 0 [.x f.xa.toNat f.pa, .x f.xb.toNat f.pb] s [a, b] t →
    Pushes (r.ins p f) s t (xq s f.xd) (s.at + r.lat)
      (toV (extend r.sgn (opWidth f.sz) (r.val (opWidth f.sz) (low (opWidth f.sz) a) (low (opWidth f.sz) b))))

/-- R112, R113: a one-source instruction, with pc = 0. -/
def Sys2Proof.Claims.ScalarOneSourcePushesResult : Prop :=
  ∀ r ∈ s1Rows, ∀ (p : Pre) (f : FmtS3) (s t : State) (a : V512), f.pc = 0 →
    Ready p 0 [.x f.xa.toNat f.pa] s [a] t →
    Pushes (r.ins p f) s t (xq s f.xd) (s.at + 1)
      (toV (extend r.sgn (opWidth f.sz) (r.val (opWidth f.sz) (low (opWidth f.sz) a))))

/-- R115: an immediate form takes the low w bits of its sign-extended immediate. -/
def Sys2Proof.Claims.ScalarImmediatePushesResult : Prop :=
  ∀ r ∈ siRows, ∀ (p : Pre) (f : FmtSI) (s t : State) (a : V512),
    Ready p 0 [.x f.xa.toNat f.pa] s [a] t →
    Pushes (r.ins p f) s t (xq s f.xd) (s.at + 1)
      (toV (extend r.sgn (opWidth f.sz)
        (r.val (opWidth f.sz) (low (opWidth f.sz) a) ((f.imm.toInt % 2 ^ opWidth f.sz).toNat))))

/-- R116: a compare sets all 64 bits of pd where its relation holds at width w, and clears pd otherwise. -/
def Sys2Proof.Claims.ScalarCompareWritesPredicate : Prop :=
  ∀ r ∈ sqRows, ∀ (p : Pre) (f : FmtSQ) (s t : State) (a b : V512),
    Ready p 0 [.x f.xa.toNat f.pa, .x f.xb.toNat f.pb] s [a, b] t →
    (r.rel (opWidth f.sz) (low (opWidth f.sz) a) (low (opWidth f.sz) b) →
      Writes (r.ins p f) p s t (s.at + 1) (.pred f.pd.toNat (BitVec.allOnes 64))) ∧
    (¬ r.rel (opWidth f.sz) (low (opWidth f.sz) a) (low (opWidth f.sz) b) →
      Writes (r.ins p f) p s t (s.at + 1) (.pred f.pd.toNat 0))

/-- R117: the predicate forms; PSET pops or peeks its source, PGET pushes A, the others combine A and B. -/
def Sys2Proof.Claims.PredicateFormsWriteTheirResult : Prop :=
  (∀ r ∈ spRows, ∀ (p : Pre) (f : FmtSP) (s : State), s.Alone → slotTrue p 0 s = true →
    Writes (r.ins p f) p s s (s.at + 1)
      (.pred f.pd.toNat (r.val (if f.ia then ~~~s.pred s.cur.agent f.pa.toNat else s.pred s.cur.agent f.pa.toNat)
        (if f.ib then ~~~s.pred s.cur.agent f.pb.toNat else s.pred s.cur.agent f.pb.toNat)))) ∧
  (∀ (p : Pre) (f : FmtSP) (s t : State) (a : V512), Ready p 0 [.x f.x.toNat f.px] s [a] t →
    Writes (.pset p f) p s t (s.at + 1) (.pred f.pd.toNat (a.setWidth 64))) ∧
  (∀ (p : Pre) (f : FmtSP) (s : State), s.Alone → slotTrue p 0 s = true →
    Pushes (.pget p f) s s (xq s f.x) (s.at + 1)
      (toV (if f.ia then ~~~s.pred s.cur.agent f.pa.toNat else s.pred s.cur.agent f.pa.toNat)))

/-- R112: the constants, SEL, MOV of a loop register on a core, and the forms that do nothing. -/
def Sys2Proof.Claims.MovesAndConstantsPushTheirValue : Prop :=
  (∀ (p : Pre) (f : FmtSL) (s : State), s.Alone → slotTrue p 0 s = true →
    Pushes (.movi p f) s s (xq s f.xd) (s.at + 1) (toV (f.imm.signExtend 64)) ∧
    Pushes (.moviz p f) s s (xq s f.xd) (s.at + 1) (toV (f.imm.setWidth 64)) ∧
    Pushes (.movih p f) s s (xq s f.xd) (s.at + 1) (toV (BitVec.ofNat 64 (f.imm.toNat * 2 ^ 32)))) ∧
  (∀ (p : Pre) (f : FmtS3) (s t : State) (a b : V512),
    Ready p 0 [.x f.xa.toNat f.pa, .x f.xb.toNat f.pb] s [a, b] t →
    Pushes (.sel p f) s t (xq s f.xd) (s.at + 1)
      (toV (extend false (opWidth f.sz)
        (low (opWidth f.sz) (if (s.pred s.cur.agent f.pc.toNat).getLsbD 0 then a else b))))) ∧
  (∀ (p : Pre) (f : FmtS3) (s : State) (c : Nat), s.Alone → slotTrue p 0 s = true → s.cur.agent = .core c → f.pc ≠ 0 →
    Pushes (.mov p f) s s (xq s f.xd) (s.at + 1)
      (toV (extend false (opWidth f.sz)
        ((lookD (s.core c).loops (f.pc.toNat - 8) 0).toNat % 2 ^ opWidth f.sz : Nat)))) ∧
  (∀ (p : Pre) (s : State), s.Alone →
    exec (.nop p) s = .next s ∧ exec (.vnop p) s = .next s ∧ exec (.mnop p) s = .next s ∧ exec (.cnop p) s = .next s)

/-! ## Control transfers, the loop nest and the control registers -/

namespace Sys2Proof.Claims

/-- The instruction answers a next state, of which P holds. -/
abbrev Gives (i : Instr) (s : State) (P : State → Prop) : Prop := ∃ t, exec i s = .next t ∧ P t

/-- The instruction answers the next state in which nothing has happened but a trap of this cause in its slot. -/
abbrev Traps (i : Instr) (p : Pre) (s : State) (cz : BitVec 8) (r : FRec) : Prop :=
  exec i s = .next (takeTrap s s.cur.agent (oneFault p.pos cz r) s.cur.pos)

/-- The agent of s goes on at position pc two cycles after the bundle at hand (R118), with this return stack. -/
abbrev GoesTo (s t : State) (pc : Nat) (stack : List Nat) : Prop :=
  (t.seq s.cur.agent).pos = pc ∧ (t.seq s.cur.agent).nextAt = (s.seq s.cur.agent).vcc + 2 ∧
    (t.seq s.cur.agent).rstack = stack ∧ t.cur.moved = true

/-- Registers that a transfer leaves as they were: queues, predicates, pending writes, holds, and all memory. -/
abbrev TransferFrame (s t : State) (a : Agent) : Prop :=
  (t.seq a).preds = (s.seq a).preds ∧ (t.seq a).pend = (s.seq a).pend ∧ (t.seq a).holds = (s.seq a).holds ∧
    (t.seq a).stores = (s.seq a).stores ∧ (t.seq a).vcc = (s.seq a).vcc ∧ sameBytes s t

/-- The value of each control register of a core, by its number (R99). -/
def crTable (s : State) (c idx : Nat) : List W64 :=
  let k := s.core c
  [BitVec.ofNat 64 k.seq.vcc, s.timeAt (coreSite c), if k.detMode then 1 else 0, BitVec.ofNat 64 k.logIdx,
   BitVec.ofNat 64 k.gridX, BitVec.ofNat 64 k.gridY, k.faultMask.setWidth 64, k.cause.setWidth 64, k.epc.setWidth 64,
   k.uivec.setWidth 64, k.uistat, BitVec.ofNat 64 (k.spillBase % 2 ^ 19), BitVec.ofNat 64 k.spillOvf,
   BitVec.ofNat 64 k.pwrLim, BitVec.ofNat 64 (k.window.foldl (· + ·) 0), BitVec.ofNat 64 k.frzCnt,
   BitVec.ofNat 64 k.lateFrz, 16, BitVec.ofNat 64 (lookD s.fw.bands idx 0), lookD s.fw.toffs idx 0]

end Sys2Proof.Claims

/-- R118 to R120: with no nest in force, BR, BRX, CALL and RET go to their target, which issues two cycles later; CALL pushes
the next sequential position, RET pops the position it goes to. -/
def Sys2Proof.Claims.TransfersGoToTheirTarget : Prop :=
  ∀ (p : Pre) (f : FmtSJ) (s : State), s.Alone → slotTrue p 0 s = true → s.cur.fin = false → nestOf s = none →
    Gives (.br p f) s (fun t => GoesTo s t f.target.toNat (s.seq s.cur.agent).rstack ∧ TransferFrame s t s.cur.agent) ∧
    (∀ (u : State) (a : V512), ReadsTo p [.x f.xa.toNat f.pa] s [a] u → a.toNat % 2 ^ 64 < 2 ^ 24 →
      Gives (.brx p f) s (fun t => GoesTo s t (a.toNat % 2 ^ 64) (u.seq s.cur.agent).rstack ∧
        TransferFrame u t s.cur.agent)) ∧
    ((s.seq s.cur.agent).rstack.length < 16 →
      Gives (.call p f) s (fun t => GoesTo s t f.target.toNat (s.cur.next :: (s.seq s.cur.agent).rstack) ∧
        TransferFrame s t s.cur.agent)) ∧
    (∀ r rest, (s.seq s.cur.agent).rstack = r :: rest → floorDepth s ≤ rest.length →
      Gives (.ret p) s (fun t => GoesTo s t r rest ∧ TransferFrame s t s.cur.agent))

/-- R119, R120: a BRX to a position of 2^24 or more is ILLEGAL_INDEX, a CALL on a full return stack QUEUE_OVERFLOW, a RET on an
empty one QUEUE_UNDERFLOW. -/
def Sys2Proof.Claims.TransfersTrapAtTheirLimits : Prop :=
  ∀ (p : Pre) (f : FmtSJ) (s : State), s.Alone → slotTrue p 0 s = true →
    (∀ (u : State) (a : V512), ReadsTo p [.x f.xa.toNat f.pa] s [a] u → 2 ^ 24 ≤ a.toNat % 2 ^ 64 →
      Traps (.brx p f) p s 0x05 FRec.none) ∧
    (16 ≤ (s.seq s.cur.agent).rstack.length → Traps (.call p f) p s 0x06 FRec.none) ∧
    ((s.seq s.cur.agent).rstack = [] → Traps (.ret p) p s 0x07 FRec.none)

/-- R126: under an active nest at depth d0 a branch out of the body ends the nest, one within it keeps it; a branch into the
body from a deeper call, a CALL at the end position and a RET at depth d0 into the body are LOOP_FAULT. -/
def Sys2Proof.Claims.TransfersObeyTheNest : Prop :=
  ∀ (p : Pre) (f : FmtSJ) (s : State) (c : Nat) (n : ActNest), s.Alone → slotTrue p 0 s = true → s.cur.fin = false →
    s.cur.agent = .core c → nestOf s = some n →
    (n.d0 = (s.core c).seq.rstack.length → ¬ (n.start ≤ f.target.toNat ∧ f.target.toNat ≤ n.stop) →
      Gives (.br p f) s (fun t => GoesTo s t f.target.toNat (s.core c).seq.rstack ∧ (t.core c).actNest = none)) ∧
    (n.d0 = (s.core c).seq.rstack.length → n.start ≤ f.target.toNat → f.target.toNat ≤ n.stop →
      Gives (.br p f) s (fun t => GoesTo s t f.target.toNat (s.core c).seq.rstack ∧ (t.core c).actNest = some n)) ∧
    (n.d0 < (s.core c).seq.rstack.length → n.start ≤ f.target.toNat → f.target.toNat ≤ n.stop →
      Traps (.br p f) p s 0x0A FRec.none) ∧
    ((s.core c).seq.rstack.length < 16 → s.cur.pos = n.stop → Traps (.call p f) p s 0x0A FRec.none) ∧
    (∀ r rest, (s.core c).seq.rstack = r :: rest → n.d0 = rest.length + 1 → n.start ≤ r → r ≤ n.stop →
      Traps (.ret p) p s 0x0A FRec.none)

/-- R123, R124: LSET sets one place of the pending nest and clears its loop register at c + 1; LRUN starts the nest of the
places set, or skips a body with no iteration; both are LOOP_FAULT while a nest is active, and an LSET of an extent of 2^32
or more. -/
def Sys2Proof.Claims.LoopFormsSetAndStartTheNest : Prop :=
  ∀ (p : Pre) (s : State) (c : Nat), s.Alone → slotTrue p 0 s = true → s.cur.agent = .core c →
    inHandler (s.core c) = false →
    (∀ (f : FmtSK) (u : State) (a : V512), ReadsTo p [.x f.x.toNat f.pa] s [a] u → (s.core c).actNest = none →
      a.toNat % 2 ^ 64 < 2 ^ 32 →
      Gives (.lset p f) s (fun t =>
        (t.core c).pendNest = pendSet (u.core c).pendNest f.idx.toNat f.cr.toNat (a.toNat % 2 ^ 64) ∧
        plainWrite s p (s.at + 1) (.loop f.cr.toNat 0) ∈ (t.core c).seq.pend)) ∧
    (∀ (f : FmtSJ) (regs ext idx : List Nat) (cnt : Nat), (s.core c).actNest = none → s.cur.next ≤ f.target.toNat →
      pendStart (s.core c).pendNest f.nd.toNat = some (regs, ext, idx, cnt) → s.cur.fin = false →
      (0 < cnt → Gives (.lrun p f) s (fun t =>
        (t.core c).actNest = some { start := s.cur.next, stop := f.target.toNat, regs := regs, ext := ext, idx := idx,
                                    cnt := cnt, d0 := (s.core c).seq.rstack.length } ∧
        (t.core c).pendNest = .empty ∧ (t.core c).seq.pos = (s.core c).seq.pos)) ∧
      (cnt = 0 → Gives (.lrun p f) s (fun t =>
        (t.core c).actNest = none ∧ (t.core c).pendNest = .empty ∧
        GoesTo s t (followOf (s.core c).seq f.target.toNat) (s.core c).seq.rstack))) ∧
    (∀ (f : FmtSK) (u : State) (a : V512), ReadsTo p [.x f.x.toNat f.pa] s [a] u →
      ((s.core c).actNest.isSome ∨ 2 ^ 32 ≤ a.toNat % 2 ^ 64) → Traps (.lset p f) p s 0x0A FRec.none) ∧
    (∀ (f : FmtSJ), (s.core c).actNest.isSome → Traps (.lrun p f) p s 0x0A FRec.none)

/-- R99, R127: RDCR pushes the register its field names. -/
def Sys2Proof.Claims.RdcrPushesTheControlRegister : Prop :=
  ∀ (p : Pre) (f : FmtSK) (s : State) (c : Nat), s.Alone → slotTrue p 0 s = true → s.cur.agent = .core c →
    f.cr.toNat < 20 →
    Pushes (.rdcr p f) s s (xq s f.x) (s.at + 1) (toV ((crTable s c f.idx.toNat).getD f.cr.toNat 0))

/-- R128: WRCR writes UIVEC and UISTAT, due at c + 1. -/
def Sys2Proof.Claims.WrcrSchedulesTheInterruptRegisters : Prop :=
  ∀ (p : Pre) (f : FmtSW) (s t : State) (a : V512), Ready p 0 [.x f.x.toNat f.pa] s [a] t →
    Writes (.wrcrUivec p f) p s t (s.at + 1) (.uivec ((a.setWidth 64).setWidth 24)) ∧
    Writes (.wrcrUistat p f) p s t (s.at + 1) (.uistat (a.setWidth 64))

/-- R128: a UISTAT write clears the pending bits written 1, sets the enable bit to bit [3], and keeps the rest; a UIVEC write
replaces UIVEC. -/
def Sys2Proof.Claims.InterruptRegisterWritesTakeEffect : Prop :=
  ∀ (s : State) (c : Nat) (v : W64) (u : BitVec 24),
    ((applyWr s (.core c) (.uistat v)).core c).uistat =
      ((s.core c).uistat &&& ~~~(v &&& 7#64) &&& ~~~8#64) ||| (v &&& 8#64) ∧
    ((applyWr s (.core c) (.uivec u)).core c).uivec = u

/-- R129, R377: TRAP commits its bundle and traps with cause 0x80 + code; EPC takes the next sequential position. -/
def Sys2Proof.Claims.TrapRaisesItsCode : Prop :=
  ∀ (p : Pre) (f : FmtSN) (s : State) (c : Nat), s.Alone → slotTrue p 0 s = true → s.cur.agent = .core c →
    Gives (.trap p f) s (fun t =>
      (t.core c).epc = BitVec.ofNat 24 s.cur.next ∧ (t.core c).faultMask = 0x20 ∧
      (t.core c).cause = BitVec.ofNat 48 ((0x80 ||| f.code).toNat * 2 ^ 40) ∧ (t.core c).mode = .trap false ∧
      (t.core c).gated = [] ∧ sameBytes s t)

/-- R130, R383: UIRET in a handler whose shadow entries have landed goes back to the position kept at entry, two cycles later;
UISTAT bit [4] clears, the shadow queues and the handler's return positions go, and the kept holds stand again. Outside a
handler it is ILLEGAL_OP. -/
def Sys2Proof.Claims.UiretLeavesTheHandler : Prop :=
  ∀ (p : Pre) (s : State) (c : Nat), s.Alone → slotTrue p 0 s = true → s.cur.agent = .core c →
    (inHandler (s.core c) = true → s.cur.fin = false → (s.core c).mode = .run → shadowLanded (s.core c) = true →
      (s.core c).savedWaits = [] →
      Gives (.uiret p) s (fun t =>
        (t.core c).mode = .run ∧ (t.core c).seq.pos = (s.core c).handlerPos ∧
        (t.core c).seq.nextAt = (s.core c).seq.vcc + 2 ∧ (t.core c).uistat = (s.core c).uistat &&& ~~~16#64 ∧
        (t.core c).seq.holds = (s.core c).savedHolds ∧ (t.core c).seq.queues.all (fun q => q.1.kind != .sh) = true ∧
        (t.core c).seq.rstack.length = min (s.core c).seq.rstack.length (s.core c).handlerDepth ∧ sameBytes s t)) ∧
    (inHandler (s.core c) = false → Traps (.uiret p) p s 0x01 FRec.none)

/-! ## The Carillon -/

/-- R363, R366: a BELL at a bell whose flag is clear counts one arrival, sets the flag, and holds the arrival until the earlier
stores of its core are performed. -/
def Sys2Proof.Claims.BellArrivesAtItsBell : Prop :=
  ∀ (p : Pre) (f : FmtSN) (s : State) (c : Nat), s.Alone → slotTrue p 0 s = true → s.cur.agent = .core c →
    ((s.core c).bell f.bell.toNat).excused = false → ((s.core c).bell f.bell.toNat).arrived = false →
    ((s.core c).bell f.bell.toNat).sent ≤ ((s.core c).bell f.bell.toNat).count →
    Gives (.bell p f) s (fun t =>
      (t.core c).bell f.bell.toNat =
        { (s.core c).bell f.bell.toNat with count := ((s.core c).bell f.bell.toNat).count + 1, arrived := true, rung := s.now } ∧
      (∃ h, (t.core c).bellHeld = (s.core c).bellHeld ++ [h] ∧ h.bell = f.bell.toNat ∧ h.ser = (s.core c).nextSer ∧
        h.waits = storesBefore (s.core c) (s.core c).nextSer) ∧
      (t.core c).mode = (s.core c).mode)

/-- R365: BWAIT at a bell whose arrival is out waits; BWAIT at another bell does nothing. BTEST writes all ones where no
arrival is out, else zero. -/
def Sys2Proof.Claims.BellWaitsAndTests : Prop :=
  ∀ (p : Pre) (f : FmtSN) (s : State) (c : Nat), s.Alone → slotTrue p 0 s = true → s.cur.agent = .core c →
    (((s.core c).bell f.bell.toNat).excused = false → ((s.core c).bell f.bell.toNat).arrived = true →
      Gives (.bwait p f) s (fun t =>
        (t.core c).waits = (s.core c).waits ++ [.bwait f.bell.toNat none] ∧ sameBytes s t) ∧
      Writes (.btest p f) p s s (s.at + 1) (.pred f.pd.toNat 0)) ∧
    (((s.core c).bell f.bell.toNat).arrived = false →
      exec (.bwait p f) s = .next s ∧
      Writes (.btest p f) p s s (s.at + 1) (.pred f.pd.toNat (BitVec.allOnes 64)))

/-- R364: BEXCUSE at a bell where the core has not arrived takes it out of the bell's participants at once. -/
def Sys2Proof.Claims.BexcuseLeavesTheBell : Prop :=
  ∀ (p : Pre) (f : FmtSN) (s : State) (c n : Nat) (L : Launch), s.Alone → slotTrue p 0 s = true → s.cur.agent = .core c →
    (s.core c).launch = some n → look s.launches n = some L →
    ((s.core c).bell f.bell.toNat).excused = false → ((s.core c).bell f.bell.toNat).arrived = false →
    Gives (.bexcuse p f) s (fun t =>
      ((t.core c).bell f.bell.toNat).excused = true ∧
      ∃ M, look t.launches n = some M ∧ (M.bell f.bell.toNat).parts = (L.bell f.bell.toNat).parts.filter (· != c))

/-- R363, R365, R366: a held arrival whose stores are performed climbs to the root; the last one of a generation releases the
bell, which clears the flag of each participant, advances its generation and sets UISTAT bit [2]. -/
def Sys2Proof.Claims.BellsReleaseOnTheLastArrival : Prop :=
  (∀ (s : State) (c b n : Nat) (L : Launch) (h : BellHeld), (s.core c).bellHeld.find? (fun h => h.bell == b) = some h →
    arrivalReady (s.core c) h = true → (s.core c).launch = some n → look s.launches n = some L →
    Gives (.bellArrival c b) s (fun t =>
      (t.core c).bellHeld = (s.core c).bellHeld.filter (fun x => x.bell != b) ∧
      ((t.core c).bell b).sent = ((s.core c).bell b).sent + 1 ∧
      ∃ M, look t.launches n = some M ∧ (M.bell b).arrived = (L.bell b).arrived ++ [c])) ∧
  (∀ (s : State) (n b : Nat) (L : Launch), look s.launches n = some L → L.detMode = false →
    (L.bell b).parts ≠ [] → (L.bell b).parts.Nodup → (∀ d ∈ (L.bell b).parts, d ∈ (L.bell b).arrived) →
    (∀ d ∈ (L.bell b).parts, (s.core d).launch = some n ∧ (s.core d).mode = .run ∧ (s.core d).waits = []) →
    Gives (.bellRelease n b) s (fun t =>
      (∀ d ∈ (L.bell b).parts, ((t.core d).bell b).gen = ((s.core d).bell b).gen + 1 ∧
        ((t.core d).bell b).arrived = false ∧ (t.core d).uistat = (s.core d).uistat ||| 4#64) ∧
      ∃ M, look t.launches n = some M ∧ (M.bell b).gen = (L.bell b).gen + 1 ∧ (M.bell b).arrived = []))

/-! ## The marks of a bundle -/

/-- R108, R109, R379, R380: a restart mark keeps the registers and the sequencer state that R379 lists and releases the gated
stores; a quiet region opens and
closes; END stops the core, ends its nest and clears its holds; the 257th bundle of a region is REGION_OVERRUN. -/
def Sys2Proof.Claims.MarksActOnTheirCore : Prop :=
  ∀ (s : State) (c : Nat), s.cur.agent = .core c →
    Gives .restartMark s (fun t =>
      (∃ x, (t.core c).snap = some x ∧ x.pos = s.cur.pos ∧ x.queues = (s.core c).seq.queues ∧
        x.preds = (s.core c).seq.preds ∧ x.loops = (s.core c).loops ∧ x.handles = (s.core c).handles ∧
        x.kregs = (s.core c).kregs ∧ x.rstack = (s.core c).seq.rstack ∧ x.holds = (s.core c).seq.holds ∧
        x.bells = (s.core c).bells ∧ x.streams = (s.core c).streams ∧ x.descs = (s.core c).descs ∧
        x.pendNest = (s.core c).pendNest ∧ x.actNest = (s.core c).actNest ∧ x.quiet = (s.core c).quiet ∧
        x.uivec = (s.core c).uivec ∧ x.uiEnable = (s.core c).uistat.getLsbD 3) ∧
      (t.core c).gated = [] ∧ (t.core c).stq.length = (s.core c).stq.length + (s.core c).gated.length ∧
      sameBytes s t) ∧
    ((s.core c).quiet = none → Gives .quietBegin s (fun t => (t.core c).quiet = some 0 ∧ sameBytes s t)) ∧
    Gives .quietEnd s (fun t => (t.core c).quiet = none ∧ sameBytes s t) ∧
    ((s.core c).mode = .run → (s.core c).waits = [] → Gives .endBundle s (fun t =>
      (t.core c).mode = .ended ∧ (t.core c).actNest = none ∧ (t.core c).seq.holds = [] ∧ (t.core c).quiet = none ∧
      (t.core c).gated = [])) ∧
    (∀ n, (s.core c).quiet = some n → 256 ≤ n → Gives .regionOverrun s (fun t =>
      (t.core c).epc = BitVec.ofNat 24 s.cur.pos ∧ (t.core c).faultMask = 0x20 ∧
      (t.core c).cause = BitVec.ofNat 48 (0x09 * 2 ^ 40) ∧ (t.core c).quiet = none))

/-! ## Vector instructions -/

namespace Sys2Proof.Claims

/-- The instruction answers a next state: t with v pushed into the vector destination, or, for code 1663 of an E-thread, its low
eight bytes into x63 (R134, R307). -/
abbrev PushesV (i : Instr) (s t : State) (vd : BitVec 11) (due : Nat) (v : V512) : Prop :=
  Pushes i s t (if vd.toNat = 1663 then ⟨.x, 63⟩ else ⟨.v, vd.toNat⟩) due
    (if vd.toNat = 1663 then (v.setWidth 64).setWidth 512 else v)

/-- v holds, in each lane of b bytes, what f gives where the mask A enables the lane, and zero bits elsewhere (R132). -/
abbrev LanesUnder (b : Nat) (A : W64) (f : Nat → Int) (v : V512) : Prop :=
  ∀ k, k < 64 / b → getLane b v k = if A.getLsbD (k * b) then (f k % 2 ^ (8 * b)).toNat else 0

/-- The instruction answers a next state in which a vector with those lanes is pushed L cycles after issue. -/
abbrev PushesLanes (i : Instr) (p : Pre) (s t : State) (vd : BitVec 11) (L b : Nat) (f : Nat → Int) : Prop :=
  ∃ v : V512, LanesUnder b (maskOf p s) f v ∧ PushesV i s t vd (s.at + L) v

/-- A lane operation of a two-source row, on operands as lane bits: its latency and its result. -/
structure V2Row where
  ins : Pre → FmtV2 → Instr
  lat : Nat
  val : FmtV2 → Nat → Nat → Int

/-- A float result of the rounding mode, or an integer one. -/
abbrev numeric (f : FmtV2) (flt : RMode → FVal → FVal → FVal) (int : Int → Int → Int) (a b : Nat) : Int :=
  if isFloat f.ty then (rnd (flt (rmode f.rm) (laneF f.ty a) (laneF f.ty b)) (floatFmt f.ty) (rmode f.rm) : Nat)
  else int (laneInt f.ty a) (laneInt f.ty b)

/-- The value of a w-bit type nearest to v (R137). -/
abbrev clampTo (ty : BitVec 4) (v : Int) : Int :=
  let w := 8 * laneBytes ty
  if isSigned ty then max (-(2 : Int) ^ (w - 1)) (min v ((2 : Int) ^ (w - 1) - 1)) else max 0 (min v ((2 : Int) ^ w - 1))

/-- The smaller (or the larger) of two lanes: by value, -0 below +0, the canonical NaN where either is a NaN (R140). -/
abbrev pick (larger : Bool) (f : FmtV2) (a b : Nat) : Int :=
  if isFloat f.ty then
    (if fIsNan (laneF f.ty a) ∨ fIsNan (laneF f.ty b) then ((floatFmt f.ty).nanBits : Int)
     else if (if larger then floatBelow (laneF f.ty a) (laneF f.ty b) else floatBelow (laneF f.ty b) (laneF f.ty a))
       then (b : Int) else a)
  else if larger then max (laneInt f.ty a) (laneInt f.ty b) else min (laneInt f.ty a) (laneInt f.ty b)

def v2Rows : List V2Row :=
  [⟨.vadd, 4, fun f => numeric f (fun m x y => fadd m x y) (· + ·)⟩,
   ⟨.vsub, 4, fun f => numeric f (fun m x y => fadd m x (fneg y)) (· - ·)⟩,
   ⟨.vmul, 4, fun f => numeric f (fun _ x y => fmul x y) (· * ·)⟩,
   ⟨.vmulh, 4, fun f a b => laneInt f.ty a * laneInt f.ty b / 2 ^ (8 * laneBytes f.ty)⟩,
   ⟨.vadds, 2, fun f a b => clampTo f.ty (laneInt f.ty a + laneInt f.ty b)⟩,
   ⟨.vsubs, 2, fun f a b => clampTo f.ty (laneInt f.ty a - laneInt f.ty b)⟩,
   ⟨.vmin, 2, pick false⟩,
   ⟨.vmax, 2, pick true⟩,
   ⟨.vand, 2, fun _ a b => (a &&& b : Nat)⟩,
   ⟨.vor, 2, fun _ a b => (a ||| b : Nat)⟩,
   ⟨.vxor, 2, fun _ a b => (a ^^^ b : Nat)⟩,
   ⟨.vandn, 2, fun f a b => (a &&& (2 ^ (8 * laneBytes f.ty) - 1 - b) : Nat)⟩]

/-- A one-source row. -/
structure V1Row where
  ins : Pre → FmtV2 → Instr
  lat : Nat
  val : FmtV2 → Nat → Int

def v1Rows : List V1Row :=
  [⟨.vmov, 2, fun _ a => a⟩,
   ⟨.vabs, 2, fun f a => if isFloat f.ty then (a % 2 ^ (8 * laneBytes f.ty - 1) : Nat) else (laneInt f.ty a).natAbs⟩,
   ⟨.vneg, 2, fun f a => if isFloat f.ty then (a ^^^ 2 ^ (8 * laneBytes f.ty - 1) : Nat) else -laneInt f.ty a⟩,
   ⟨.vpopc, 2, fun f a => popcN a (8 * laneBytes f.ty)⟩,
   ⟨.vclz, 2, fun f a => clzN (8 * laneBytes f.ty) a⟩,
   ⟨.vexp2, 12, fun _ a => rnd (vexp2F (unpack fmtF32 a)) fmtF32 .rne⟩,
   ⟨.vrcp, 12, fun _ a => rnd (vrcpF (unpack fmtF32 a)) fmtF32 .rne⟩,
   ⟨.vrsq, 12, fun _ a => rnd (vrsqF (unpack fmtF32 a)) fmtF32 .rne⟩]

/-- A shift (R141): its result on a lane and a count. -/
structure VShRow where
  ins : Pre → FmtV2 → Instr
  val : Nat → Nat → Nat → Int

def vShRows : List VShRow :=
  [⟨.vshl, fun _ a k => (a * 2 ^ k : Nat)⟩,
   ⟨.vshr, fun _ a k => (a / 2 ^ k : Nat)⟩,
   ⟨.vsar, fun w a k => asInt true w a / 2 ^ k⟩]

/-- A compare (R142): its relation on lanes. A NaN makes every relation but "not equal" false. -/
structure VCmpRow where
  ins : Pre → FmtV2 → Instr
  int : Int → Int → Prop
  flt : Ordering → Prop
  nan : Prop

def vCmpRows : List VCmpRow :=
  [⟨.vcmpeq, fun a b => a = b, fun o => o = .eq, False⟩,
   ⟨.vcmpne, fun a b => a ≠ b, fun o => o ≠ .eq, True⟩,
   ⟨.vcmplt, fun a b => a < b, fun o => o = .lt, False⟩,
   ⟨.vcmple, fun a b => a ≤ b, fun o => o ≠ .gt, False⟩]

/-- The relation of a row on lanes of a type. -/
def VCmpRow.rel (r : VCmpRow) (ty : BitVec 4) (a b : Nat) : Prop :=
  if isFloat ty then (if fIsNan (laneF ty a) ∨ fIsNan (laneF ty b) then r.nan else r.flt (fcmp (laneF ty a) (laneF ty b)))
  else r.int (laneInt ty a) (laneInt ty b)

/-- A permutation (R151): what stands in lane i, of n lanes, from the lanes of a and of b and the aux field. -/
structure VPermRow where
  ins : Pre → FmtV2 → Instr
  two : Bool
  val : Nat → Nat → (Nat → Nat) → (Nat → Nat) → Nat → Nat

def vPermRows : List VPermRow :=
  [⟨.vperm, true, fun n _ a b i => if b i < n then a (b i) else 0⟩,
   ⟨.vshuf, false, fun _ x a _ i => a (i ^^^ (x % 64))⟩,
   ⟨.vtrn, true, fun _ x a b i =>
      let g := x / 2 % 8
      let hi := if x % 2 = 1 then 2 ^ g else 0
      if i.testBit g then b (i - 2 ^ g + hi) else a (i + hi)⟩,
   ⟨.vbcast, false, fun _ x a _ _ => a (x % 64)⟩,
   ⟨.vlane, true, fun _ x a b i => if i = x % 64 then b 0 else a i⟩,
   ⟨.vrot, true, fun n x a b i => if i + x % 64 < n then a (i + x % 64) else b (i + x % 64 - n)⟩,
   ⟨.vzip, true, fun n x a b i =>
      let h := i / 2 + (if x % 2 = 1 then n / 2 else 0)
      if i % 2 = 0 then a h else b h⟩,
   ⟨.vunzip, true, fun n x a b i =>
      let j := 2 * i + (if x % 2 = 1 then 1 else 0)
      if j < n then a j else b (j - n)⟩]

/-- The lanes that a mask enables, with their place. -/
def lanesOn (b : Nat) (A : W64) (a : V512) : List Nat :=
  ((List.range (64 / b)).filter (fun k => A.getLsbD (k * b))).map (getLane b a)

end Sys2Proof.Claims

/-- R132, R134, R137, R139 to R141: a two-source vector instruction, lane by lane. -/
def Sys2Proof.Claims.VectorTwoSourceWorksLaneByLane : Prop :=
  ∀ r ∈ v2Rows, ∀ (p : Pre) (f : FmtV2) (s t : State) (a b : V512),
    Ready p (laneBytes f.ty) [.v ⟨f.va, f.pa, f.ty⟩, .v ⟨f.vb, f.pb, f.ty⟩] s [a, b] t →
    PushesLanes (r.ins p f) p s t f.vd r.lat (laneBytes f.ty)
      (fun k => r.val f (getLane (laneBytes f.ty) a k) (getLane (laneBytes f.ty) b k))

/-- R136, R140, R148, R49 to R51: a one-source vector instruction, lane by lane. -/
def Sys2Proof.Claims.VectorOneSourceWorksLaneByLane : Prop :=
  ∀ r ∈ v1Rows, ∀ (p : Pre) (f : FmtV2) (s t : State) (a : V512),
    Ready p (laneBytes f.ty) [.v ⟨f.va, f.pa, f.ty⟩] s [a] t →
    PushesLanes (r.ins p f) p s t f.vd r.lat (laneBytes f.ty) (fun k => r.val f (getLane (laneBytes f.ty) a k))

/-- R136, R137: VSEL takes a where any bit of c is 1, else b; VFMA and VFMS round once. -/
def Sys2Proof.Claims.VectorThreeSourceWorksLaneByLane : Prop :=
  ∀ (p : Pre) (f : FmtV3) (s t : State) (a b c : V512),
    Ready p (laneBytes f.ty) [.v ⟨f.va, f.pa, f.ty⟩, .v ⟨f.vb, false, f.ty⟩, .v ⟨f.vc, false, f.ty⟩] s [a, b, c] t →
    PushesLanes (.vsel p f) p s t f.vd 2 (laneBytes f.ty) (fun k =>
      if getLane (laneBytes f.ty) c k ≠ 0 then getLane (laneBytes f.ty) a k else getLane (laneBytes f.ty) b k) ∧
    (∀ fms : Bool, PushesLanes (if fms then .vfms p f else .vfma p f) p s t f.vd 4 (laneBytes f.ty) (fun k =>
      let x := getLane (laneBytes f.ty) a k
      let y := getLane (laneBytes f.ty) b k
      let z := getLane (laneBytes f.ty) c k
      if isFloat f.ty then
        (rnd (fadd (rmode f.rm) (fmul (laneF f.ty x) (laneF f.ty y))
          (if fms then fneg (laneF f.ty z) else laneF f.ty z)) (floatFmt f.ty) (rmode f.rm) : Nat)
      else laneInt f.ty x * laneInt f.ty y + (if fms then -laneInt f.ty z else laneInt f.ty z)))

/-- R141: the shift count comes lane by lane from vb, modulo the lane width, or from aux. -/
def Sys2Proof.Claims.VectorShiftsWorkLaneByLane : Prop :=
  ∀ r ∈ vShRows, ∀ (p : Pre) (f : FmtV2) (s t : State) (a b : V512),
    (f.aux.getLsbD 9 = false → Ready p (laneBytes f.ty) [.v ⟨f.va, f.pa, f.ty⟩, .v ⟨f.vb, f.pb, f.ty⟩] s [a, b] t →
      PushesLanes (r.ins p f) p s t f.vd 2 (laneBytes f.ty) (fun k =>
        r.val (8 * laneBytes f.ty) (getLane (laneBytes f.ty) a k) (getLane (laneBytes f.ty) b k % (8 * laneBytes f.ty)))) ∧
    (f.aux.getLsbD 9 = true → Ready p (laneBytes f.ty) [.v ⟨f.va, f.pa, f.ty⟩] s [a] t →
      PushesLanes (r.ins p f) p s t f.vd 2 (laneBytes f.ty) (fun k =>
        r.val (8 * laneBytes f.ty) (getLane (laneBytes f.ty) a k) (f.aux.toNat % 64)))

/-- R142: a vector compare sets the bits of each enabled lane where the relation holds, and clears every other bit. -/
def Sys2Proof.Claims.VectorComparesWritePredicateByByte : Prop :=
  ∀ r ∈ vCmpRows, ∀ (p : Pre) (f : FmtV2) (s t : State) (a b : V512),
    Ready p (laneBytes f.ty) [.v ⟨f.va, f.pa, f.ty⟩, .v ⟨f.vb, f.pb, f.ty⟩] s [a, b] t →
    ∃ v : W64,
      (∀ j, j < 64 → (v.getLsbD j = true ↔
        (maskOf p s).getLsbD (j / laneBytes f.ty * laneBytes f.ty) = true ∧
          r.rel f.ty (getLane (laneBytes f.ty) a (j / laneBytes f.ty)) (getLane (laneBytes f.ty) b (j / laneBytes f.ty)))) ∧
      Writes (r.ins p f) p s t (s.at + 2) (.pred (f.vd.toNat % 16) v)

/-- R151: a permutation takes each enabled lane from the place its rule names, three cycles after issue. -/
def Sys2Proof.Claims.VectorPermutesMoveLanes : Prop :=
  ∀ r ∈ vPermRows, ∀ (p : Pre) (f : FmtV2) (s t : State) (a b : V512),
    Ready p (laneBytes f.ty)
      (if r.two then [.v ⟨f.va, f.pa, f.ty⟩, .v ⟨f.vb, f.pb, f.ty⟩] else [.v ⟨f.va, f.pa, f.ty⟩]) s
      (if r.two then [a, b] else [a]) t →
    PushesLanes (r.ins p f) p s t f.vd 3 (laneBytes f.ty) (fun k =>
      r.val (64 / laneBytes f.ty) f.aux.toNat (getLane (laneBytes f.ty) a) (getLane (laneBytes f.ty) b) k)

/-- R147: a reduction leaves its result in lane 0 and zero elsewhere, due six cycles after issue: on integer lanes the sum
modulo 2^8w, the largest or the smallest of the enabled lanes; on float lanes the pairwise tree of R147. -/
def Sys2Proof.Claims.VectorReductionsCombineTheLanes : Prop :=
  ∀ (p : Pre) (f : FmtV2) (s t : State) (a : V512),
    Ready p (laneBytes f.ty) [.v ⟨f.va, f.pa, f.ty⟩] s [a] t →
    (isInt f.ty = true →
      (∃ v, PushesV (.vredadd p f) s t f.vd (s.at + 6) v ∧
        v.toNat = (lanesOn (laneBytes f.ty) (maskOf p s) a).foldr (· + ·) 0 % 2 ^ (8 * laneBytes f.ty)) ∧
      (∃ v x, PushesV (.vredmax p f) s t f.vd (s.at + 6) v ∧ v.toNat = x ∧ x ∈ lanesOn (laneBytes f.ty) (maskOf p s) a ∧
        ∀ y ∈ lanesOn (laneBytes f.ty) (maskOf p s) a, laneInt f.ty y ≤ laneInt f.ty x) ∧
      (∃ v x, PushesV (.vredmin p f) s t f.vd (s.at + 6) v ∧ v.toNat = x ∧ x ∈ lanesOn (laneBytes f.ty) (maskOf p s) a ∧
        ∀ y ∈ lanesOn (laneBytes f.ty) (maskOf p s) a, laneInt f.ty x ≤ laneInt f.ty y)) ∧
    (∀ (ins : Pre → FmtV2 → Instr) (comb : Nat → Nat → Nat),
      (ins, comb) ∈ [(Instr.vredadd, laneAdd f.ty (rmode f.rm)), (Instr.vredmax, laneMax f.ty),
                     (Instr.vredmin, laneMin f.ty)] →
      ∃ v, PushesV (ins p f) s t f.vd (s.at + 6) v ∧
        v.toNat = treeFold comb 6 ((List.range (64 / laneBytes f.ty)).map (fun k =>
          if (maskOf p s).getLsbD (k * laneBytes f.ty) then some (getLane (laneBytes f.ty) a k) else none))
          % 2 ^ (8 * laneBytes f.ty))

/-- R143, R144, R146: VCVT converts into the lanes of the target type, VDQNT the codes of one part into F32 lanes; VBSCALE
writes the largest magnitude seen, or its scale byte. -/
def Sys2Proof.Claims.VectorConversionsPushTheirResult : Prop :=
  (∀ (p : Pre) (f : FmtV2) (s t : State) (a : V512),
    Ready p (laneBytes (f.aux.setWidth 4)) [.v ⟨f.va, f.pa, f.ty⟩] s [a] t →
    PushesLanes (.vcvt p f) p s t f.vd 4 (laneBytes (f.aux.setWidth 4)) (fun k =>
      let T : BitVec 4 := f.aux.setWidth 4
      let part := f.aux.toNat / 16 % 8
      let conv := fun j => (cvtLane f.ty T (f.aux.getLsbD 7) (rmode f.rm) (getLane (laneBytes f.ty) a j) : Int)
      if laneBytes f.ty ≤ laneBytes T then conv (part * laneCount T + k)
      else if part * laneCount f.ty ≤ k ∧ k < part * laneCount f.ty + laneCount f.ty then conv (k - part * laneCount f.ty)
      else 0)) ∧
  (∀ (p : Pre) (f : FmtV2) (s t : State) (a b : V512),
    Ready p 4 [.v ⟨f.va, f.pa, tyN8⟩, .v ⟨f.vb, f.pb, tyN8⟩] s [a, b] t →
    PushesLanes (.vdqnt p f) p s t f.vd 4 4 (fun k =>
      (rnd (dqntVal f.ty (getLane 1 b 0) (getLane 1 a (16 * (f.aux.toNat % 4) + k))) fmtF32 (rmode f.rm) : Nat))) ∧
  (∀ (p : Pre) (f : FmtV2) (s t : State) (a b : V512),
    Ready p 4 [.v ⟨f.va, f.pa, tyF32⟩, .v ⟨f.vb, f.pb, tyF32⟩] s [a, b] t →
    PushesV (.vbscale p f) s t f.vd (s.at + 4) (bscaleVec f.ty (f.aux.getLsbD 0) (maskOf p s) a b))

/-- R145, R39: VQNT encodes 16 F32 lanes into one quarter of the byte lanes, and raises the executor's underflow counter by the
lanes that underflow. -/
def Sys2Proof.Claims.VqntEncodesAndCountsUnderflow : Prop :=
  ∀ (p : Pre) (f : FmtV2) (s t : State) (a b : V512) (c id : Nat) (u : State), s.cur.agent = .core c → f.vd.toNat ≠ 1663 →
    Ready p 1 [.v ⟨f.va, f.pa, tyF32⟩, .v ⟨f.vb, f.pb, tyN8⟩] s [a, b] t →
    reserve t s.cur.agent ⟨.v, f.vd.toNat⟩ (s.at + 4) = some (id, u) →
    ∃ v : V512,
      LanesUnder 1 (maskOf p s) (fun k =>
        if getLane 1 b 0 ≠ 255 ∧ k / 16 = f.aux.toNat % 4 then
          (qntCode f.ty (qntVal (getLane 1 b 0) (getLane 4 a (k % 16))) : Nat) else 0) v ∧
      exec (.vqnt p f) s = .next (landEntry
        (u.modCore c (fun k => { k with qUnder := k.qUnder +
          (if getLane 1 b 0 = 255 ∨ isTF f.ty = false then 0
           else ((List.range 16).filter (fun i => (maskOf p s).getLsbD (16 * (f.aux.toNat % 4) + i) &&
             tfUnder (tfBits f.ty) (qntVal (getLane 1 b 0) (getLane 4 a i)))).length) }))
        (.core c) ⟨.v, f.vd.toNat⟩ id v none)

/-! ## What every slot instruction does -/

namespace Sys2Proof.Claims

/-- The lane width with which the mask of a slot instruction counts (R132), 0 where its predicate's lowest bit alone does (R60). -/
def laneOf : Instr → Nat
  | .vmov _ f | .vadd _ f | .vsub _ f | .vmul _ f | .vadds _ f | .vsubs _ f | .vmulh _ f | .vmin _ f | .vmax _ f
  | .vabs _ f | .vneg _ f | .vand _ f | .vor _ f | .vxor _ f | .vandn _ f | .vshl _ f | .vshr _ f | .vsar _ f
  | .vcmpeq _ f | .vcmpne _ f | .vcmplt _ f | .vcmple _ f | .vredadd _ f | .vredmax _ f | .vredmin _ f | .vpopc _ f
  | .vclz _ f | .vexp2 _ f | .vrcp _ f | .vrsq _ f | .vperm _ f | .vshuf _ f | .vtrn _ f | .vbcast _ f | .vlane _ f
  | .vrot _ f | .vzip _ f | .vunzip _ f => laneBytes f.ty
  | .vsel _ f | .vfma _ f | .vfms _ f => laneBytes f.ty
  | .vcvt _ f => laneBytes (f.aux.setWidth 4)
  | .vqnt .. => 1
  | .vbscale .. | .vdqnt .. | .vrule .. => 4
  | _ => 0

/-- The queue and the value that a slot reads from a landed, due and sound entry at the head of a queue. -/
abbrev HeadIs (s : State) (q : QName) (v : V512) (rest : List Entry) : Prop :=
  ∃ e, s.entries s.cur.agent q = e :: rest ∧ e.data = some v ∧ e.due ≤ s.at ∧ e.poison = none

/-- bs is what a read of n bytes at a finds where writes of the core that are still to be performed are not ordered with it: each
unit is old or new, and old in deterministic mode (R159, R170, R181, R224, R359). -/
abbrev OldOrNew (s : State) (det : Bool) (ws : List (Nat × List Byte)) (a n : Nat) (bs : List Byte) : Prop :=
  bs.length = n ∧ ∃ new : Nat → Bool, (det = true → ∀ x, new x = false) ∧ ∀ j, j < n →
    bs.getD j 0 = ws.foldl (fun b w =>
      if w.1 ≤ a + j ∧ a + j < w.1 + w.2.length ∧ new ((a + j) / unitSize (a + j) * unitSize (a + j)) = true then
        w.2.getD (a + j - w.1) 0 else b) (s.mem.get (a + j))

/-- Whether a source names queue q of the agent at hand (R64, R106). -/
def namesQ (s : State) (q : QName) : Src → Prop
  | .x n _ => s.xq s.cur.agent n = q
  | .v o => (o.code.toNat ≤ 1535 ∧ q = ⟨.v, o.code.toNat⟩) ∨
      (1568 ≤ o.code.toNat ∧ o.code.toNat ≤ 1663 ∧ q = s.xq s.cur.agent (o.code.toNat - 1600))

end Sys2Proof.Claims

/-- R60, R79, R132: a slot whose predicate does not enable it reads, reserves and changes nothing. (A UIRET that waits in its
handler is no longer a slot at issue.) -/
def Sys2Proof.Claims.SlotThatIsNotTrueDoesNothing : Prop :=
  ∀ (i : Instr) (p : Pre) (s : State), preOf i = some p → s.Alone → slotTrue p (laneOf i) s = false →
    Wait.uiret ∉ (s.core (coreOf s.cur.agent)).waits → exec i s = .next s

/-- R79, R133: a source that is a scalar or a vector queue gives the oldest entry, which a pop removes and a peek leaves; a
broadcast copies the scalar to every lane; a constant reads no queue. -/
def Sys2Proof.Claims.SourcesReadAsTheirCodeSays : Prop :=
  ∀ (p : Pre) (s : State) (v : V512) (rest : List Entry) (pk : Bool),
    (∀ n, HeadIs s (s.xq s.cur.agent n) v rest →
      ReadsTo p [.x n pk] s [v] (if pk then s else s.setEntries s.cur.agent (s.xq s.cur.agent n) rest)) ∧
    (∀ (o : VOp), o.peek = pk →
      (o.code.toNat ≤ 1535 → HeadIs s ⟨.v, o.code.toNat⟩ v rest →
        ∃ x : V512, (∀ k, k < laneCount o.ty → getLane (laneBytes o.ty) x k =
            (if o.ty = 12 then getLane 1 v k % 64 else getLane (laneBytes o.ty) v k)) ∧
          ReadsTo p [.v o] s [x] (if pk then s else s.setEntries s.cur.agent ⟨.v, o.code.toNat⟩ rest)) ∧
      (1600 ≤ o.code.toNat → o.code.toNat ≤ 1663 → HeadIs s (s.xq s.cur.agent (o.code.toNat - 1600)) v rest →
        ∃ x : V512, (∀ k, k < laneCount o.ty → getLane (laneBytes o.ty) x k =
            v.toNat % 2 ^ (if o.ty = 12 then 6 else 8 * laneBytes o.ty)) ∧
          ReadsTo p [.v o] s [x] (if pk then s else s.setEntries s.cur.agent (s.xq s.cur.agent (o.code.toNat - 1600)) rest)) ∧
      (1664 ≤ o.code.toNat → ∃ x : V512,
        (∀ k, k < laneCount o.ty →
          getLane (laneBytes o.ty) x k = constLane o.code.toNat o.ty k % 2 ^ (8 * laneBytes o.ty)) ∧
        ReadsTo p [.v o] s [x] s))

/-- R52, R190, R191: a stream source reads the next elements of its register's pattern, as many as the lane type has lanes, each from
the bits of AMEM that the pattern gives it, extended into its lane, and advances the register by as many. A register with no pattern,
and an element past AMEM byte 524,287, are BOUNDS, a poisoned pattern ACC_ERROR. -/
def Sys2Proof.Claims.StreamsReadTheirElements : Prop :=
  ∀ (p : Pre) (s : State) (c n : Nat), s.cur.agent = .core c → n < 32 →
    (∀ (o : VOp) (g : Stream), o.code.toNat = 1536 + n → look (s.core c).streams n = some g → g.poison = none → 1 ≤ g.w → g.w ≤ 16 →
      s.bad = [] →
      let at_ := fun i => g.first + (g.pos + i) / g.n * g.period + (g.pos + i) % g.n * g.w
      (∀ i, i < laneCount o.ty → 8 * g.start + at_ i + g.w ≤ 8 * 524288) →
      ∃ x : V512, (∀ i, i < laneCount o.ty → ∃ raw : Nat, raw < 2 ^ g.w ∧
          (∀ b, b < g.w → raw.testBit b =
            (s.mem.get (localBase c 1 + g.start + (at_ i + b) / 8)).getLsbD ((at_ i + b) % 8)) ∧
          getLane (laneBytes o.ty) x i = (asInt (isSigned o.ty) g.w raw % 2 ^ (if o.ty = 12 then 6 else 8 * laneBytes o.ty)).toNat) ∧
        ReadsTo p [.v o] s [x] (s.setCore c { s.core c with
          streams := put (s.core c).streams n { g with pos := g.pos + laneCount o.ty } })) ∧
    (∀ r ∈ v1Rows, ∀ (f : FmtV2), s.Alone → slotTrue p (laneBytes f.ty) s = true → f.va.toNat = 1536 + n →
      (look (s.core c).streams n = none → Traps (r.ins p f) p s 0x0C FRec.none) ∧
      (∀ g, look (s.core c).streams n = some g → g.poison = none → 1 ≤ g.w →
        (∃ i, i < laneCount f.ty ∧
          8 * 524288 < 8 * g.start + (g.first + (g.pos + i) / g.n * g.period + (g.pos + i) % g.n * g.w) + g.w) →
        Traps (r.ins p f) p s 0x0C FRec.none) ∧
      (∀ g pa, look (s.core c).streams n = some g → g.poison = some pa →
        Traps (r.ins p f) p s 0x13 { FRec.none with kind := 5, slot := p.pos, r0 := BitVec.ofNat 64 (pa / 64 * 64) }))

/-- R102, R385: on a core a read of an empty queue is QUEUE_UNDERFLOW, of an entry that has not landed or is not due
SHADOW_READ, of a poisoned one ACC_ERROR; a push into a full queue is QUEUE_OVERFLOW. Nothing else happens. -/
def Sys2Proof.Claims.QueueMisuseTraps : Prop :=
  ∀ r ∈ s3Rows, ∀ (p : Pre) (f : FmtS3) (s : State) (c : Nat), s.Alone → slotTrue p 0 s = true → s.cur.agent = .core c →
    (s.entries (.core c) (xq s f.xa) = [] → Traps (r.ins p f) p s 0x07 FRec.none) ∧
    (∀ e rest, s.entries (.core c) (xq s f.xa) = e :: rest → (e.data = none ∨ s.at < e.due) →
      Traps (r.ins p f) p s 0x08 FRec.none) ∧
    (∀ e rest pa, s.entries (.core c) (xq s f.xa) = e :: rest → e.data.isSome → e.due ≤ s.at → e.poison = some pa →
      Traps (r.ins p f) p s 0x13 { FRec.none with kind := 5, slot := p.pos, r0 := BitVec.ofNat 64 (pa / 64 * 64) }) ∧
    (∀ (a b : V512) (t : State), ReadsTo p [.x f.xa.toNat f.pa, .x f.xb.toNat f.pb] s [a, b] t →
      4 ≤ (t.entries (.core c) (xq s f.xd)).length → Traps (r.ins p f) p s 0x06 FRec.none)

/-- R79: reading sources on a core changes queues that a source names and stream positions, and nothing else. -/
def Sys2Proof.Claims.ReadingLeavesTheRest : Prop :=
  ∀ (p : Pre) (srcs : List Src) (s t : State) (vs : List V512) (c : Nat), s.cur.agent = .core c → ReadsTo p srcs s vs t →
    (t = s ∨ ∃ Q S, t = s.setCore c { s.core c with seq := { (s.core c).seq with queues := Q }, streams := S }) ∧
    (∀ q, (∀ x ∈ srcs, ¬ namesQ s q x) → t.entries (.core c) q = s.entries (.core c) q) ∧
    ((∀ o, Src.v o ∈ srcs → o.code.toNat < 1536 ∨ 1567 < o.code.toNat) → (t.core c).streams = (s.core c).streams) ∧
    vs.length = srcs.length

/-- R79, R100: reserving an entry and landing its value changes one queue of the core, which holds the value as its youngest
entry, and nothing else. Scheduling a plain-register write changes the list of writes that are to come, and nothing else. -/
def Sys2Proof.Claims.PushingLeavesTheRest : Prop :=
  ∀ (s u : State) (c : Nat) (q : QName) (due id : Nat) (v : V512),
    reserve s (.core c) q due = some (id, u) →
    (∃ Q n, landEntry u (.core c) q id v none =
      s.setCore c { s.core c with seq := { (s.core c).seq with queues := Q, nid := n } }) ∧
    (∀ q', q' ≠ q → (landEntry u (.core c) q id v none).entries (.core c) q' = s.entries (.core c) q') ∧
    ((∀ e ∈ s.entries (.core c) q, e.id < (s.core c).seq.nid) →
      (landEntry u (.core c) q id v none).entries (.core c) q =
        s.entries (.core c) q ++ [{ id := id, due := due, data := some v, poison := none }]) ∧
    (∀ w : PendWr, ∃ P, schedule s (.core c) w = s.setCore c { s.core c with seq := { (s.core c).seq with pend := P } } ∧ w ∈ P ∧
      (∀ x ∈ P, x ∈ (s.core c).seq.pend ∨ x = w) ∧
      ∀ x ∈ (s.core c).seq.pend, x ∉ P → x.ser = w.ser ∧ x.wr.key = w.wr.key ∧ w.due < x.due)

/-- R180, R187, R214, R380: no slot instruction writes memory at issue, and none moves the clock, the firmware, the page tables or
the host's queues; its stores wait in its queues. -/
def Sys2Proof.Claims.SlotInstructionsLeaveMemory : Prop :=
  ∀ (i : Instr) (p : Pre) (s t : State), preOf i = some p → s.cur.phase = .whole → exec i s = .next t →
    t.mem = s.mem ∧ t.poison = s.poison ∧ t.bad = s.bad ∧ t.now = s.now ∧ t.fw = s.fw ∧ t.ptes = s.ptes ∧
    t.queues = s.queues ∧ t.irqs = s.irqs ∧ t.notes = s.notes ∧ t.agenda = s.agenda ∧ t.turns = s.turns

/-- R97, R100, R103, R128, R190, R192: a plain-register write takes its value when it is applied: p0 stays all ones, the other
registers of its kind keep their values, and nothing but the list of its kind changes. -/
def Sys2Proof.Claims.PlainWritesTakeEffect : Prop :=
  ∀ (s : State) (c n : Nat) (v : W64),
    ((∀ m, (applyWr s (.core c) (.pred n v)).pred (.core c) m =
        if m = 0 then BitVec.allOnes 64 else if m = n then v else s.pred (.core c) m) ∧
      (applyWr s (.core c) (.pred n v) = s ∨
        ∃ l, applyWr s (.core c) (.pred n v) = s.setCore c { s.core c with seq := { (s.core c).seq with preds := l } })) ∧
    (∀ w, ∃ l, applyWr s (.core c) (.loop n w) = s.setCore c { s.core c with loops := l } ∧
      ∀ m, lookD l m 0 = if m = n then w else lookD (s.core c).loops m 0) ∧
    (∃ l, applyWr s (.core c) (.kreg n v) = s.setCore c { s.core c with kregs := l } ∧
      ∀ m, lookD l m 0 = if m = n then v else lookD (s.core c).kregs m 0) ∧
    (∀ h, ∃ l, applyWr s (.core c) (.handle n h) = s.setCore c { s.core c with handles := l } ∧
      ∀ m, lookD l m Handle.none = if m = n then h else (s.core c).handle m) ∧
    (∀ g, ∃ l, applyWr s (.core c) (.stream n g) = s.setCore c { s.core c with streams := l } ∧
      ∀ m, look l m = if m = n then g else look (s.core c).streams m) ∧
    (∀ d po, ∃ l, applyWr s (.core c) (.desc n d po) = s.setCore c { s.core c with descs := l } ∧
      ∀ m, look l m = if m = n then some (d, po) else look (s.core c).descs m) ∧
    (∀ u, applyWr s (.core c) (.uivec u) = s.setCore c { s.core c with uivec := u }) ∧
    (∃ u, applyWr s (.core c) (.uistat v) = s.setCore c { s.core c with uistat := u })

/-- R358, R376 to R379, R382, R384, R386: a trap writes FAULTMASK, CAUSE, EPC and the fault record, closes a quiet region, and
discards the gated stores where the core stops to report; of its waits only a CWAIT's entry stays (R105). In deterministic mode
TLB_MISS, PAGE_FAULT and LEASE_RECALLED become NONDET_FAULT; outside it a core with a snapshot rolls a TLB_MISS or a LEASE_RECALLED
back. An IBUF_ERROR is reloaded once. In a handler each of them is reported. -/
def Sys2Proof.Claims.TrapsWriteTheFaultRegisters : Prop :=
  ∀ (s : State) (c : Nat) (pos : Pos) (cz : BitVec 8) (r : FRec) (epc : Nat), r.found = 0 →
    let t := takeTrap s (.core c) (oneFault pos cz r) epc
    let cause := if (s.core c).detMode ∧ (cz = 0x0E ∨ cz = 0x0F ∨ cz = 0x10) then 0x19 else cz
    let again := cz = 0x12 ∧ (s.core c).ibufAt ≠ some epc ∧ inHandler (s.core c) = false
    let rolls := (cz = 0x0E ∨ cz = 0x10) ∧ r.kind ≠ 3 ∧ (s.core c).detMode = false ∧ (s.core c).snap.isSome ∧
      inHandler (s.core c) = false
    (t.core c).faultMask = BitVec.ofNat 6 (2 ^ posBit pos) ∧
    (t.core c).cause = BitVec.ofNat 48 (cause.toNat * 2 ^ (8 * posBit pos)) ∧
    (t.core c).epc = BitVec.ofNat 24 epc ∧ (t.core c).quiet = none ∧ (t.core c).frec = { r with slot := pos } ∧
    (again → (t.core c).mode = .reload) ∧
    (¬ again → rolls → (t.core c).mode = .roll (oneFault pos cz r) ∧ (t.core c).gated = []) ∧
    (¬ again → ¬ rolls → (t.core c).mode = .trap false ∧ (t.core c).gated = [] ∧
      (t.core c).waits = (s.core c).waits.filter Wait.keepsEntry) ∧
    (t.core c).seq = (s.core c).seq ∧ t.mem = s.mem ∧ (∀ d, d ≠ c → t.core d = s.core d)

/-! ## The matrix unit -/

namespace Sys2Proof.Claims

/-- The command queue of the matrix unit of core c has m at its end, and one more command has been issued. -/
abbrev Queues (i : Instr) (s : State) (c : Nat) (m : MCmd) : Prop :=
  Gives i s (fun t => (t.mx c).queue = (s.mx c).queue ++ [m] ∧ (t.mx c).issued = (s.mx c).issued + 1 ∧
    (t.mx c).rings = (s.mx c).rings ∧ (t.mx c).mseq = (s.mx c).mseq ∧ sameBytes s t)

/-- The command at the head of the queue retires in the present cycle. -/
abbrev Retires (s t : State) (c : Nat) : Prop :=
  (t.mx c).queue = (s.mx c).queue.drop 1 ∧ (t.mx c).retired = (s.mx c).retired + 1 ∧ (t.mx c).running = false ∧
    (t.mx c).mseq = none ∧ (t.mx c).fault = none

/-- A deferred matrix fault: its cause, and the record of R377. -/
abbrev MatrixFaults (i : Instr) (s : State) (c : Nat) (cz : BitVec 8) (cmd pos row : Nat) : Prop :=
  Gives i s (fun t => (t.mx c).fault = some (cz, BitVec.ofNat 64 (cmd + pos * 4 + row * 4096)) ∧
    (t.mx c).queue = (s.mx c).queue)

/-- A running command at the head of the queue whose cycle has come. -/
abbrev Runs (s : State) (c : Nat) (m : MCmd) : Prop :=
  (∃ rest, (s.mx c).queue = m :: rest) ∧ (s.mx c).running = true ∧ mxReady s c = true

/-- The microinstruction of core c whose cycle has come finds the sequencer at m. -/
abbrev AtMicro (s : State) (c : Nat) (m : MSeq) : Prop :=
  s.cur.agent = .core c ∧ (s.mx c).mseq = some m ∧ mxReady s c = true

/-- The sequencer goes to m' and the next microinstruction may issue in the next cycle. -/
abbrev MicroTo (i : Instr) (s : State) (c : Nat) (m' : MSeq) : Prop :=
  Gives i s (fun t => (t.mx c).mseq = some m' ∧ (t.mx c).freeAt = s.vccOf c + 1 ∧ (t.mx c).fault = none ∧
    (t.mx c).queue = (s.mx c).queue ∧ (t.mx c).rings = (s.mx c).rings ∧ sameBytes s t)

/-- The configured ring n of a matrix unit, none where no MRING has configured it. -/
abbrev confOf (s : State) (c n : Nat) : Option RingConf := (ringAt (s.mx c) n).conf

end Sys2Proof.Claims

/-- R156 to R160, R167, R170: an MX slot form queues its command where the queue holds fewer than eight, and is QUEUE_OVERFLOW
otherwise; MCALL captures k0 to k7, MDRAIN checks its drain word, MSETK writes the call parameters, MWAIT waits. -/
def Sys2Proof.Claims.MatrixSlotsQueueTheirCommand : Prop :=
  ∀ (p : Pre) (s : State) (c : Nat), s.Alone → slotTrue p 0 s = true → s.cur.agent = .core c →
    (∀ (f : FmtMF), (routineCode (s.mx c) f.routine.toNat).isSome →
      ((s.mx c).queue.length < 8 → Queues (.mcall p f) s c (.mcall f.routine.toNat f.ra.toNat f.rb.toNat
        ((List.range 8).map (fun i => lookD (s.core c).kregs i 0)))) ∧
      (8 ≤ (s.mx c).queue.length → Traps (.mcall p f) p s 0x06 FRec.none)) ∧
    (∀ (f : FmtMF), routineCode (s.mx c) f.routine.toNat = none → Traps (.mcall p f) p s 0x05 FRec.none) ∧
    (∀ (f : FmtMR), ((s.mx c).queue.length < 8 → Queues (.madv p f) s c (.madv f.ring.toNat f.count.toNat)) ∧
      (8 ≤ (s.mx c).queue.length → Traps (.madv p f) p s 0x06 FRec.none)) ∧
    (∀ (f : FmtMR) (t : State) (a : V512), ReadsTo p [.x f.xa.toNat f.pa] s [a] t →
      ((s.mx c).queue.length < 8 → Queues (.mring p f) s c (.mring f.ring.toNat (a.setWidth 64))) ∧
      (8 ≤ (s.mx c).queue.length → Traps (.mring p f) p s 0x06 FRec.none)) ∧
    (∀ (f : FmtMD) (t : State) (a : V512), ReadsTo p [.x f.xa.toNat f.pa] s [a] t →
      (drainOk f.fmt.toNat (drainOf (a.setWidth 64)) = true → (s.mx c).queue.length < 8 →
        Queues (.mdrain p f) s c (.mdrain f.fmt.toNat f.rm (a.setWidth 64))) ∧
      (drainOk f.fmt.toNat (drainOf (a.setWidth 64)) = false → Traps (.mdrain p f) p s 0x02 FRec.none)) ∧
    (∀ (f : FmtMK) (t : State) (a : V512), ReadsTo p [.x f.xa.toNat f.pa] s [a] t →
      Writes (.msetk p f) p s t (s.at + 1) (.kreg f.kj.toNat (a.setWidth 64))) ∧
    (∀ (f : FmtMA) (t : State) (a : V512), ReadsTo p [.v ⟨f.vq, f.pv, 7⟩] s [a] t →
      Gives (.msetkAll p f) s (fun u => (∀ j, j < 8 →
        plainWrite s p (s.at + 1) (.kreg j (BitVec.ofNat 64 (getLane 8 a j))) ∈ (u.core c).seq.pend) ∧ sameBytes s u)) ∧
    Gives (.mwait p) s (fun t => (t.core c).waits = (s.core c).waits ++ [.mwait (s.mx c).issued] ∧ sameBytes s t)

/-- R157 to R160: the command at the head starts once the unit is free; MRING configures its ring with head and tail zero or is
ILLEGAL_FIELD; MADV advances the tail or is QUEUE_OVERFLOW; MCALL starts the microsequencer at position 0 or is ILLEGAL_FIELD. -/
def Sys2Proof.Claims.MatrixCommandsRunInOrder : Prop :=
  ∀ (s : State) (c : Nat),
    (∀ m rest, (s.mx c).queue = m :: rest → (s.mx c).running = false → mxReady s c = true →
      Gives (.matrixCommandStart c) s (fun t => (t.mx c).running = true ∧ (t.mx c).queue = (s.mx c).queue ∧
        (t.mx c).freeAt = (match m with | .mdrain .. => s.vccOf c + 3 | _ => s.vccOf c) ∧
        sameBytes s t)) ∧
    (∀ r w, Runs s c (.mring r w) →
      (ringOk w = true → Gives (.mringExecute c) s (fun t => Retires s t c ∧
        look (t.mx c).rings r = some { conf := some (ringOf w), head := 0, tail := 0 } ∧
        (∀ n, n ≠ r → ringAt (t.mx c) n = ringAt (s.mx c) n) ∧ sameBytes s t)) ∧
      (ringOk w = false → MatrixFaults (.mringExecute c) s c 0x02 1 0 0)) ∧
    (∀ r n g, Runs s c (.madv r n) → confOf s c r = some g →
      ((ringAt (s.mx c) r).held + n ≤ g.ntile →
        Gives (.madvExecute c) s (fun t => Retires s t c ∧
          ringAt (t.mx c) r = { ringAt (s.mx c) r with tail := ((ringAt (s.mx c) r).tail + n) % 2 ^ 32 } ∧ sameBytes s t)) ∧
      (g.ntile < (ringAt (s.mx c) r).held + n → MatrixFaults (.madvExecute c) s c 0x06 2 0 0)) ∧
    (∀ r ra rb ks, Runs s c (.mcall r ra rb ks) → (s.mx c).mseq = none →
      (ringsSuit (ringAt (s.mx c) ra) (ringAt (s.mx c) rb) = true →
        Gives (.mcallStart c) s (fun t => (∃ m, (t.mx c).mseq = some m ∧ m.routine = r ∧ m.ra = ra ∧ m.rb = rb ∧ m.ks = ks ∧
          m.pos = 0 ∧ m.loops = [] ∧ m.acur = 0 ∧ m.ccur = 0 ∧ m.ta = 0 ∧ m.tb = 0 ∧ m.bank0 = none ∧ m.bank1 = none ∧
          m.modeA = false ∧ m.modeB = false) ∧ (t.mx c).queue = (s.mx c).queue ∧ sameBytes s t)) ∧
      (ringsSuit (ringAt (s.mx c) ra) (ringAt (s.mx c) rb) = false → MatrixFaults (.mcallStart c) s c 0x02 0 0 0))

/-- R167 to R169, R172: when its cycle has come, a drain writes its next row of CMEM, converted to its format, at the destination
plus as many strides, and nothing else; 4 cycles later it writes the one after it. The last row retires it. Where its core stops,
what is left of it stays at the head of the queue. -/
def Sys2Proof.Claims.MdrainWritesItsRows : Prop :=
  ∀ (s : State) (c fmt : Nat) (rm : BitVec 2) (w : W64) (rest : List MCmd), (s.mx c).queue = .mdrain fmt rm w :: rest →
    drainReady s c = true → drainOk fmt (drainOf w) = true → fmt ≤ 5 → (s.mx c).drained < (drainOf w).nrow →
    s.bad = [] → s.memOk →
    let d := drainOf w
    let i := (s.mx c).drained
    let lo := localBase c d.sp + d.dest + i * d.stride
    Gives (.mdrainExecute c) s (fun t =>
      t.mem.read lo (drainRow fmt d) =
        (drainBytes fmt rm ((List.range d.ncol).map (fun j => s.mem.num (cmemAt c (d.crow + i) j) 4))).1 ∧
      sameOutside s t lo (drainRow fmt d) ∧
      (i + 1 = d.nrow → Retires s t c) ∧
      (i + 1 < d.nrow → stopping (s.core c) = false →
        (t.mx c).drained = i + 1 ∧ (t.mx c).freeAt = (s.mx c).freeAt + 4 ∧ (t.mx c).queue = (s.mx c).queue) ∧
      (i + 1 < d.nrow → stopping (s.core c) = true →
        (t.mx c).running = false ∧ (t.mx c).queue = .mdrain fmt rm (drainLeft w (i + 1)) :: rest))

/-- R171: a deferred matrix fault is taken in the MX slot at the next bundle boundary, with its record; EPC is the position of the
bundle that would issue. A frozen core takes none. -/
def Sys2Proof.Claims.DeferredMatrixFaultTraps : Prop :=
  ∀ (s : State) (c : Nat) (cz : BitVec 8) (r0 : W64), (s.mx c).fault = some (cz, r0) → atBoundary s c = true →
    s.frozen (.core c) = false → cz ≠ 0x12 →
    cz ≠ 0x0E → cz ≠ 0x0F → cz ≠ 0x10 →
    Gives (.deferredMatrixFault c) s (fun t =>
      (t.core c).epc = BitVec.ofNat 24 (s.core c).seq.pos ∧ (t.core c).faultMask = BitVec.ofNat 6 (2 ^ posBit .mx) ∧
      (t.core c).cause = BitVec.ofNat 48 (cz.toNat * 2 ^ (8 * posBit .mx)) ∧ (t.core c).frec.kind = 2 ∧
      (t.core c).frec.r0 = r0 ∧ (t.core c).mode = .trap false ∧ sameBytes s t)

/-- R161, R162: the one-cycle microinstructions and their effect on the cursors, the modes, the tile counts and the loops. -/
def Sys2Proof.Claims.MicroinstructionsStepTheSequencer : Prop :=
  ∀ (s : State) (c : Nat) (m : MSeq), AtMicro s c m →
    MicroTo .unop s c { m with pos := m.pos + 1 } ∧
    (∀ k ks (off : BitVec 9), MicroTo (.ufeta k ks off) s c
      { m with pos := m.pos + 1, acur := wrap16 (off.toNat + (if ks then (m.ks.getD k.toNat 0).toNat else 0)) }) ∧
    (∀ mode sc, MicroTo (.usca mode sc) s c { m with pos := m.pos + 1, modeA := mode, scaleA := sc }) ∧
    (∀ mode sc, MicroTo (.uscb mode sc) s c { m with pos := m.pos + 1, modeB := mode, scaleB := sc }) ∧
    (∀ k ks neg (d : BitVec 16),
      let by_ : Int := d.toInt + (if neg then -1 else 1) * (if ks then ((m.ks.getD k.toNat 0).toNat : Int) else 0)
      MicroTo (.ustep k ks neg false d) s c { m with pos := m.pos + 1, acur := wrap16 (m.acur + by_) } ∧
      MicroTo (.ustep k ks neg true d) s c { m with pos := m.pos + 1, ccur := wrap16 (m.ccur + by_) }) ∧
    MicroTo .upopa s c { m with pos := m.pos + 1, ta := m.ta + 1, acur := 0, touchA := false } ∧
    MicroTo .upopb s c { m with pos := m.pos + 1, tb := m.tb + 1, touchB := false } ∧
    (∀ b n l, m.loops = (b, n) :: l →
      (n ≤ 1 → MicroTo .uendl s c { m with pos := m.pos + 1, loops := l }) ∧
      (1 < n → MicroTo .uendl s c { m with pos := b, loops := (b, n - 1) :: l })) ∧
    (∀ k ks (n : BitVec 16),
      let t := n.toNat + (if ks then (m.ks.getD k.toNat 0).toNat else 0)
      (0 < t → t < 2 ^ 32 → MicroTo (.uloop k ks n) s c { m with pos := m.pos + 1, loops := (m.pos + 1, t) :: m.loops }) ∧
      (t = 0 → ∀ before body e rest, routineCode (s.mx c) m.routine = some (before ++ body ++ e :: rest) →
        before.length = m.pos + 1 → (∀ w ∈ body, w.toNat / 2 ^ 27 ≠ 8 ∧ w.toNat / 2 ^ 27 ≠ 9) → e.toNat / 2 ^ 27 = 9 →
        MicroTo (.uloop k ks n) s c { m with pos := m.pos + 1 + body.length + 1 }) ∧
      (2 ^ 32 ≤ t → MatrixFaults (.uloop k ks n) s c 0x0C 0 m.pos 0))

/-- R162, R164: USYNC and URET issue once no tile load runs and every UMAC write is performed; URET advances the heads of its
rings by the tiles popped, and by one more where a tile was begun, and the call retires. -/
def Sys2Proof.Claims.MicroSyncAndReturn : Prop :=
  ∀ (s : State) (c : Nat) (m : MSeq), AtMicro s c m → (s.mx c).loadEnd ≤ s.vccOf c →
    (m.wrEnd = 0 ∨ m.wrEnd < s.vccOf c) →
    MicroTo .usync s c { m with pos := m.pos + 1 } ∧
    (m.ra ≠ m.rb → Gives .uret s (fun t => Retires s t c ∧
      ringAt (t.mx c) m.ra = { ringAt (s.mx c) m.ra with
        head := ((ringAt (s.mx c) m.ra).head + m.ta + (if m.touchA then 1 else 0)) % 2 ^ 32 } ∧
      ringAt (t.mx c) m.rb = { ringAt (s.mx c) m.rb with
        head := ((ringAt (s.mx c) m.rb).head + m.tb + (if m.touchB then 1 else 0)) % 2 ^ 32 } ∧ sameBytes s t))

/-- R162: UFETB begins the load of tile head + tb of its B ring into a bank, ready after the load time of 256 bytes a cycle; an
empty ring is QUEUE_UNDERFLOW, a ring without a configuration BOUNDS. It issues while the load path and the bank are free, be a
UMAC on the other bank under way or not. -/
def Sys2Proof.Claims.UfetbLoadsATile : Prop :=
  ∀ (s : State) (c : Nat) (m : MSeq) (b : Bool), s.cur.agent = .core c → (s.mx c).mseq = some m → ufetbReady s c b m = true →
    (∀ r, confOf s c m.rb = some r → m.tb < (ringAt (s.mx c) m.rb).held →
      Gives (.ufetb b) s (fun t => ∃ m' k, (t.mx c).mseq = some m' ∧ m'.pos = m.pos + 1 ∧ m'.touchB = true ∧
        bankGet m' b = some k ∧ bankGet m' (!b) = bankGet m (!b) ∧
        k.tile = ((ringAt (s.mx c) m.rb).head + m.tb) % 2 ^ 32 ∧ k.ready = (t.mx c).loadEnd ∧
        (t.mx c).loadEnd = s.vccOf c + 1 + (tileBytes r.fmt r.trows + 255) / 256 ∧ sameBytes s t)) ∧
    (∀ r, confOf s c m.rb = some r → (ringAt (s.mx c) m.rb).held ≤ m.tb → MatrixFaults (.ufetb b) s c 0x07 0 m.pos 0) ∧
    (confOf s c m.rb = none → MatrixFaults (.ufetb b) s c 0x0C 0 m.pos 0)

/-- R159, R162, R181: once a bank's load is over, the bank holds the bytes of its tile as its ring has it. -/
def Sys2Proof.Claims.LoadedBanksHoldTheirTile : Prop :=
  ∀ (s : State) (c : Nat) (m : MSeq) (b : Bool) (k : Bank) (r : RingConf), (s.mx c).mseq = some m → (s.mx c).fault = none →
    bankGet m b = some k → k.bytes = none → k.ready ≤ s.vccOf c → confOf s c m.rb = some r → s.bad = [] → s.memOk →
    sameBytes s (loadBank c b s) ∧ ∃ m' bs, ((loadBank c b s).mx c).mseq = some m' ∧ bankGet m' b = some { k with bytes := some bs } ∧
      bankGet m' (!b) = bankGet m (!b) ∧
      OldOrNew s (s.core c).detMode (laterStores (s.core c)) (tileAt c r k.tile) (tileBytes r.fmt r.trows) bs

/-- R162: UZACC runs for as many cycles as it has rows and clears its first row of CMEM in its first, and nothing else; rows
outside CMEM are BOUNDS. -/
def Sys2Proof.Claims.UzaccClearsItsRows : Prop :=
  ∀ (s : State) (c : Nat) (m : MSeq) (k : BitVec 3) (ks : Bool) (n : BitVec 10), AtMicro s c m → s.memOk →
    let t := n.toNat + (if ks then (m.ks.getD k.toNat 0).toNat else 0)
    (1 ≤ t → 0 ≤ m.ccur → m.ccur + t ≤ 512 →
      Gives (.uzacc k ks n) s (fun u => (u.mx c).mseq = some { m with pos := m.pos + 1 } ∧
        (u.mx c).freeAt = s.vccOf c + t ∧
        (∃ r, (u.mx c).rows = some r ∧ r.mac = false ∧ r.from_ = s.vccOf c ∧ r.count = t ∧ r.done = 1 ∧ r.crow = m.ccur.toNat) ∧
        (∀ a, cmemAt c m.ccur.toNat 0 ≤ a → a < cmemAt c m.ccur.toNat 0 + 512 → u.mem.get a = 0) ∧
        sameOutside s u (cmemAt c m.ccur.toNat 0) 512)) ∧
    ((t = 0 ∨ m.ccur < 0 ∨ 512 < m.ccur + t) → MatrixFaults (.uzacc k ks n) s c 0x0C 0 m.pos 0)

namespace Sys2Proof.Claims

/-- The row of a UMAC that the unit forms, to be written in cycle due: of each row of the B tile the product with row arow of the
A tile, as the cycle's read finds it, is added to the word of CMEM row crow (R159, R163). -/
abbrev FormsRow (s : State) (c : Nat) (m : MSeq) (ra rb : RingConf) (bt : List Byte) (arow crow due : Nat) (w : MWrite) : Prop :=
  let base := tileAt c ra ((ringAt (s.mx c) m.ra).head + m.ta)
  let read := OldOrNew s (s.core c).detMode (laterStores (s.core c))
  w.due = due ∧ w.crow = crow ∧ w.words.length = rb.trows ∧ ∃ ar sc, read (base + arow * 128) 128 ar ∧
    (if fmtScaled ra.fmt then read (base + ra.trows * 128 + 2 * arow) 2 sc else sc = [127#8, 127#8]) ∧
    ∀ j, j < rb.trows → w.words[j]? = some ((accWord s c crow j).map (macWord m ra rb ar ((bt.drop (j * 128)).take 128)
      (sc.map BitVec.toNat) [rowScale rb.fmt bt rb.trows j 0, rowScale rb.fmt bt rb.trows j 1]))

end Sys2Proof.Claims

/-- R162, R163: a UMAC whose bank is ready runs for as many cycles as it has rows, forms its first row in its first, to be
written 6 cycles later, and moves both cursors by its rows; rows out of range are BOUNDS, an empty A ring QUEUE_UNDERFLOW. -/
def Sys2Proof.Claims.UmacAccumulatesItsRows : Prop :=
  ∀ (s : State) (c : Nat) (m : MSeq) (k : BitVec 3) (ks b : Bool) (n : BitVec 10) (bk : Bank) (ra rb : RingConf)
      (bt : List Byte), AtMicro s c m →
    bankGet m b = some bk → bk.bytes = some bt → bk.ready ≤ s.vccOf c → confOf s c m.ra = some ra → confOf s c m.rb = some rb →
    s.bad = [] → s.memOk →
    let t := n.toNat + (if ks then (m.ks.getD k.toNat 0).toNat else 0)
    let fits := 1 ≤ t ∧ t ≤ 512 ∧ 0 ≤ m.ccur ∧ m.ccur + t ≤ 512 ∧ 0 ≤ m.acur ∧ m.acur + t ≤ ra.trows
    (fits → m.ta < (ringAt (s.mx c) m.ra).held →
      Gives (.umac k ks n b) s (fun u =>
        (∃ w, (u.mx c).writes = (s.mx c).writes ++ [w] ∧
          FormsRow s c m ra rb bt m.acur.toNat m.ccur.toNat (s.vccOf c + 6) w) ∧
        (∃ r, (u.mx c).rows = some r ∧ r.mac = true ∧ r.from_ = s.vccOf c ∧ r.count = t ∧ r.done = 1 ∧ r.bank = b ∧
          r.arow = m.acur.toNat ∧ r.crow = m.ccur.toNat) ∧
        (∃ m', (u.mx c).mseq = some m' ∧ m'.pos = m.pos + 1 ∧ m'.acur = wrap16 (m.acur + t) ∧ m'.ccur = wrap16 (m.ccur + t) ∧
          m'.touchA = true ∧ bankGet m' b = some { bk with ready := s.vccOf c + t }) ∧
        (u.mx c).freeAt = s.vccOf c + t ∧ sameBytes s u)) ∧
    (¬ fits → MatrixFaults (.umac k ks n b) s c 0x0C 0 m.pos 0) ∧
    (fits → (ringAt (s.mx c) m.ra).held ≤ m.ta → MatrixFaults (.umac k ks n b) s c 0x07 0 m.pos 0)

/-- R162, R163, R169: in each later cycle of a UZACC or a UMAC the unit clears or forms one more row, and a row formed is written
in its cycle: its words with fresh check bits, a word that was formed from an uncorrectable one marked again. -/
def Sys2Proof.Claims.MatrixRowsFollowEachCycle : Prop :=
  ∀ (s : State) (c : Nat),
    (∀ m r, (s.mx c).mseq = some m → (s.mx c).rows = some r → (s.mx c).fault = none → r.done < r.count →
      r.from_ + r.done ≤ s.vccOf c →
      (r.mac = false → s.memOk →
        (((rowStep c s).mx c).rows = some { r with done := r.done + 1 } ∧
          (∀ a, cmemAt c (r.crow + r.done) 0 ≤ a → a < cmemAt c (r.crow + r.done) 0 + 512 → (rowStep c s).mem.get a = 0) ∧
          sameOutside s (rowStep c s) (cmemAt c (r.crow + r.done) 0) 512)) ∧
      (∀ bk bt ra rb, r.mac = true → bankGet m r.bank = some bk → bk.bytes = some bt → confOf s c m.ra = some ra →
        confOf s c m.rb = some rb → s.bad = [] → s.memOk →
        ((rowStep c s).mx c).rows = some { r with done := r.done + 1 } ∧ sameBytes s (rowStep c s) ∧
        ∃ w, ((rowStep c s).mx c).writes = (s.mx c).writes ++ [w] ∧
          FormsRow s c m ra rb bt (r.arow + r.done) (r.crow + r.done) (s.vccOf c + 6) w)) ∧
    (∀ w rest, (s.mx c).writes = w :: rest → w.due ≤ s.vccOf c → (∀ x ∈ rest, s.vccOf c < x.due) → s.memOk →
      ((performRows c s).mx c).writes = rest ∧
      (∀ j v, w.words[j]? = some (some v) → (performRows c s).mem.num (cmemAt c w.crow j) 4 = v % 2 ^ 32) ∧
      (∀ j, w.words[j]? = some none → cmemAt c w.crow j ∈ (performRows c s).bad) ∧
      sameOutside s (performRows c s) (cmemAt c w.crow 0) (4 * w.words.length))

/-! ## Local memories and the spill space -/

namespace Sys2Proof.Claims

/-- The value that a load of n bytes gives its destination: 64 bytes whole, a scalar extended by its size code (R183). -/
abbrev loaded (sz : BitVec 3) (n raw : Nat) : V512 :=
  if sz = 7 then BitVec.ofNat 512 raw else toV (extend (decide (4 ≤ sz.toNat ∧ sz.toNat ≤ 6)) (8 * n) raw)

/-- Bytes of an access by its size code (R66). -/
abbrev bytesOf (sz : BitVec 3) : Nat :=
  [1, 2, 4, 8, 1, 2, 4, 64].getD sz.toNat 0

/-- The address of a CL form: its index, where it has one, plus its scaled offset (R183). -/
abbrev clEA (f : FmtCL) (vs : List V512) : Nat :=
  (if f.nx then 0 else (vs.getD 0 0).toNat % 2 ^ 64) + f.off.toNat * bytesOf f.sz

/-- The local store that x describes waits in the agent's list behind those before it. -/
abbrev Stores (i : Instr) (s t : State) (x : LocalSt) : Prop :=
  Gives i s (fun u => (u.seq s.cur.agent).stores = (t.seq s.cur.agent).stores ++ [x] ∧ sameBytes s u)

/-- Entry e of the forwarding table covers spill byte o. -/
abbrev Covers (e : Fwd) (o : Nat) : Prop := e.off ≤ o ∧ o < e.off + e.bytes.length

end Sys2Proof.Claims

/-- R170, R180, R183, R184: a local load of n bytes in bounds and aligned gives the bytes as they stand at issue, after the
exposed latency of its space; a word of CMEM that the core's matrix unit has formed and not written is old or new; out of bounds
is BOUNDS, misaligned ALIGN, an uncorrectable unit ACC_ERROR. -/
def Sys2Proof.Claims.LocalLoadsReadTheirSpace : Prop :=
  ∀ ins ∈ [Instr.lds, Instr.ldvs], ∀ (p : Pre) (f : FmtCL) (s t : State) (vs : List V512),
    Ready p 0 (if f.nx then [] else [.x f.xa.toNat f.pa]) s vs t →
    let sp := spaceOf s.cur.agent f.sp
    let n := bytesOf f.sz
    let a := clEA f vs
    (a + n ≤ sp.2.1 → a % n = 0 → s.badUnder (sp.1 + a) n = false →
      let q : QName := if f.sz = 7 then ⟨.v, f.reg.toNat⟩ else s.xq s.cur.agent (f.reg.toNat % 64)
      ((∀ c, s.cur.agent = .core c → (s.core c).detMode = true ∨
          ∀ w ∈ laterRows c (s.core c), sp.1 + a + n ≤ w.1 ∨ w.1 + w.2.length ≤ sp.1 + a) →
        Pushes (ins p f) s t q (s.at + sp.2.2) (loaded f.sz n (s.mem.num (sp.1 + a) n))) ∧
      (∀ c id u, s.cur.agent = .core c → s.memOk → reserve t s.cur.agent q (s.at + sp.2.2) = some (id, u) →
        ∃ bs m, OldOrNew s (s.core c).detMode (laterRows c (s.core c)) (sp.1 + a) n bs ∧
          exec (ins p f) s = .next (landEntry { u with free := m } s.cur.agent q id (loaded f.sz n (ofBytes bs)) none))) ∧
    (sp.2.1 < a + n → Traps (ins p f) p s 0x0C FRec.none) ∧
    (a + n ≤ sp.2.1 → a % n ≠ 0 → Traps (ins p f) p s 0x0B FRec.none) ∧
    (a + n ≤ sp.2.1 → a % n = 0 → s.badUnder (sp.1 + a) n = true →
      Traps (ins p f) p s 0x13 { FRec.none with found := s.unitsUnder [(sp.1 + a, n)] })

/-- R180, R183: a local store waits, with its bytes, until its space's latency has passed; its traps are those of a load. -/
def Sys2Proof.Claims.LocalStoresWaitTheirLatency : Prop :=
  ∀ ins ∈ [Instr.sts, Instr.stvs], ∀ (p : Pre) (f : FmtCL) (s t : State) (vs : List V512) (d : V512),
    Ready p 0 ((if f.nx then [] else [.x f.xa.toNat f.pa]) ++ [if f.sz = 7 then .v ⟨f.reg, false, 7⟩ else .x (f.reg.toNat % 64) false])
      s (vs ++ [d]) t → vs.length = (if f.nx then 0 else 1) →
    let sp := spaceOf s.cur.agent f.sp
    let n := bytesOf f.sz
    let a := clEA f vs
    (a + n ≤ sp.2.1 → a % n = 0 →
      Stores (ins p f) s t { due := s.at + sp.2.2, addr := sp.1 + a, bytes := toBytes d.toNat n, ser := s.serial }) ∧
    (sp.2.1 < a + n → Traps (ins p f) p s 0x0C FRec.none) ∧
    (a + n ≤ sp.2.1 → a % n ≠ 0 → Traps (ins p f) p s 0x0B FRec.none)

/-- R180, R181, R182: a performed store writes its bytes and no other, but in an uncorrectable unit of which it covers only a part,
where it writes nothing; the units that it covers are sound again. -/
def Sys2Proof.Claims.PerformedStoresWriteTheirBytes : Prop :=
  ∀ (s : State) (x : LocalSt), s.memOk →
    let covered := fun u : Nat => x.addr ≤ u ∧ u + unitSize u ≤ x.addr + x.bytes.length
    (∀ i, i < x.bytes.length →
      ((∀ u ∈ s.bad, u ≤ x.addr + i → x.addr + i < u + unitSize u → covered u) →
        (performStores s [x]).mem.get (x.addr + i) = x.bytes.getD i 0) ∧
      ((∃ u ∈ s.bad, u ≤ x.addr + i ∧ x.addr + i < u + unitSize u ∧ ¬ covered u) →
        (performStores s [x]).mem.get (x.addr + i) = s.mem.get (x.addr + i))) ∧
    sameOutside s (performStores s [x]) x.addr x.bytes.length ∧
    (∀ u, u ∈ (performStores s [x]).bad ↔ u ∈ s.bad ∧ ¬ covered u)

/-- R185 to R187, R380: SPILL enters the forwarding table, which holds 16 entries, and its store goes to the scratchpad or, for
the overflow area, to the store queue or the gated store buffer. -/
def Sys2Proof.Claims.SpillStoresAndForwards : Prop :=
  ∀ (p : Pre) (f : FmtCL) (s t : State) (vs : List V512) (d : V512) (c : Nat),
    Ready p 0 ((if f.nx then [] else [.x f.xa.toNat f.pa]) ++ [if f.sz = 7 then .v ⟨f.reg, false, 7⟩ else .x (f.reg.toNat % 64) false])
      s (vs ++ [d]) t → vs.length = (if f.nx then 0 else 1) → s.cur.agent = .core c →
    let n := bytesOf f.sz
    let o := clEA f vs
    let k := s.core c
    (o % n = 0 → k.fwd.length < 16 →
      (∀ part lat, (part, lat) ∈ [(0, 1), (1, 3)] → spillPart k.spillSize o n = some part →
        Gives (.spill p f) s (fun u =>
          (u.core c).fwd = k.fwd ++ [{ off := o, bytes := toBytes d.toNat n, due := some (s.at + lat), acc := none }] ∧
          (u.core c).seq.stores = (t.core c).seq.stores ++
            [{ due := s.at + lat, addr := spillAddr c k o, bytes := toBytes d.toNat n, ser := s.serial }] ∧ sameBytes s u)) ∧
      (spillPart k.spillSize o n = some 2 → k.snap = none → k.stq.length < 64 → (∀ y ∈ k.stq, y.ser ≠ 2 * k.nextSer) →
        Gives (.spill p f) s (fun u => ∃ x : Access, (u.core c).stq = k.stq ++ [x] ∧ x.kind = .store ∧
          x.pa = spillAddr c k o ∧ x.size = n ∧ x.data = d ∧
          (u.core c).fwd = k.fwd ++ [{ off := o, bytes := toBytes d.toNat n, due := some (s.at + 256), acc := some x.id }] ∧
          sameBytes s u)) ∧
      (spillPart k.spillSize o n = some 2 → k.snap.isSome → s.cur.fin = false → k.gated.length < 64 →
        (∀ y ∈ k.gated, y.ser ≠ 2 * k.nextSer) →
        Gives (.spill p f) s (fun u => ∃ x : Access, (u.core c).gated = k.gated ++ [x] ∧ x.kind = .store ∧
          x.pa = spillAddr c k o ∧ x.size = n ∧ x.data = d ∧
          (u.core c).fwd = k.fwd ++ [{ off := o, bytes := toBytes d.toNat n, due := none, acc := some x.id }] ∧
          sameBytes s u))) ∧
    (spillPart k.spillSize o n = none → Traps (.spill p f) p s 0x0C FRec.none) ∧
    ((spillPart k.spillSize o n).isSome → o % n ≠ 0 → Traps (.spill p f) p s 0x0B FRec.none) ∧
    ((spillPart k.spillSize o n).isSome → o % n = 0 → 16 ≤ k.fwd.length → Traps (.spill p f) p s 0x06 FRec.none)

/-- R185 to R187, R214: a FILL takes each byte from the youngest forwarding entry that covers it, else from storage. From FMEM or
the carve-out it takes them at issue; from the overflow area it enters the load queue, due 256 cycles after issue, with the bytes
that the table has forwarded. -/
def Sys2Proof.Claims.FillTakesTheYoungestBytes : Prop :=
  ∀ (p : Pre) (f : FmtCL) (s t u : State) (vs : List V512) (c part id : Nat),
    Ready p 0 (if f.nx then [] else [.x f.xa.toNat f.pa]) s vs t → s.cur.agent = .core c →
    let n := bytesOf f.sz
    let o := clEA f vs
    let k := s.core c
    let q : QName := if f.sz = 7 then ⟨.v, f.reg.toNat⟩ else s.xq (.core c) (f.reg.toNat % 64)
    let youngest := fun (j : Nat) (b : Byte) => ∃ older e younger, k.fwd = older ++ e :: younger ∧ Covers e (o + j) ∧
      (∀ y ∈ younger, ¬ Covers y (o + j)) ∧ b = e.bytes.getD (o + j - e.off) 0
    spillPart k.spillSize o n = some part → o % n = 0 →
    reserve t (.core c) q (s.at + [1, 3, 256].getD part 256) = some (id, u) →
    (part < 2 → s.bad = [] →
      ∃ bs : List Byte, bs.length = n ∧
        (∀ j, j < n → (∀ b, youngest j b → bs.getD j 0 = b) ∧
          ((∀ e ∈ k.fwd, ¬ Covers e (o + j)) → bs.getD j 0 = s.mem.get (spillAddr c k (o + j)))) ∧
        exec (.fill p f) s = .next (landEntry u (.core c) q id (loaded f.sz n (ofBytes bs)) none)) ∧
    (part = 2 → k.ldq.length < 64 →
      Gives (.fill p f) s (fun w => ∃ (x : Access) (fw : List (Nat × Byte)), (w.core c).ldq = (u.core c).ldq ++ [x] ∧
        (w.core c).seq = (u.core c).seq ∧ x.kind = .load ∧ x.pa = spillAddr c k o ∧ x.size = n ∧ x.late = s.at + 256 ∧
        x.land = .fill q id f.sz fw ∧
        (∀ j b, j < n → youngest j b → look fw j = some b) ∧
        (∀ j, j < n → (∀ e ∈ k.fwd, ¬ Covers e (o + j)) → look fw j = none) ∧ sameBytes s w))

/-! ## Accesses through handles -/

namespace Sys2Proof.Claims

/-- The sources of a CH form's address, and its offset (R188). -/
abbrev chIdx (f : FmtCH) : List Src := if f.nx then [] else [.x f.xo.toNat f.po]
abbrev chEA (f : FmtCH) (vs : List V512) : Int :=
  (if f.nx then 0 else ((vs.getD 0 0).setWidth 64).toInt) + f.disp.toInt * (bytesOf f.sz : Int)

/-- A core's access of n bytes at an offset through a handle may go on (R189): the handle is valid, the range lies in its page,
aligned, and the page allows it. -/
abbrev HandleAllows (h : Handle) (off : Int) (n : Nat) (rd wr : Bool) : Prop :=
  h.valid = true ∧ 0 ≤ off ∧ off + n ≤ (if h.large then 2 ^ 25 else 2 ^ 16) ∧ off % n = 0 ∧
    (rd = true → h.read = true) ∧ (wr = true → h.write = true)

/-- A core at hand, with the handle that a field names. -/
abbrev OnCore (s : State) (c : Nat) (h : BitVec 5) (hd : Handle) : Prop :=
  s.cur.agent = .core c ∧ (s.core c).handle h.toNat = hd

/-- The landing cycle of an access: its lat field, or its padded bound where the field is zero (R71, R350). -/
abbrev latFor (s : State) (c pa : Nat) (lat : BitVec 9) : Nat :=
  if lat = 0 then 2 * homePath s.fw.bands (coreSite c) pa + padded pa + 8 else lat.toNat

/-- An atomic row (R227, R228): its operation code and what it writes. -/
structure AtomRow where
  ins : Pre → FmtCA → Instr
  op : BitVec 7
  new : Nat → Nat → Nat → Nat → Option Nat

def atomRows : List AtomRow :=
  [⟨.aadd, 0x18, fun w o v _ => some ((o + v) % 2 ^ w)⟩,
   ⟨.amin, 0x19, fun w o v _ => some (if asInt true w o ≤ asInt true w v then o else v)⟩,
   ⟨.amax, 0x1A, fun w o v _ => some (if asInt true w v ≤ asInt true w o then o else v)⟩,
   ⟨.aminn, 0x1B, fun _ o v _ => some (if o ≤ v then o else v)⟩,
   ⟨.amaxn, 0x1C, fun _ o v _ => some (if o ≤ v then v else o)⟩,
   ⟨.aand, 0x1D, fun _ o v _ => some (o &&& v)⟩,
   ⟨.aor, 0x1E, fun _ o v _ => some (o ||| v)⟩,
   ⟨.axor, 0x1F, fun _ o v _ => some (o ^^^ v)⟩,
   ⟨.axchg, 0x20, fun _ _ v _ => some v⟩,
   ⟨.acas, 0x21, fun _ o v c => if o = c then some v else none⟩,
   ⟨.afadd, 0x22, fun _ o v _ => some (rnd (fadd .rne (unpack fmtF32 o) (unpack fmtF32 v)) fmtF32 .rne)⟩]

/-- The words that an atomic reads: xo, xv, and xc for ACAS. -/
abbrev atomSrcs (r : AtomRow) (f : FmtCA) : List Src :=
  [.x f.xo.toNat (f.pk.getLsbD 2), .x f.xv.toNat (f.pk.getLsbD 1)] ++
    (if r.op = 0x21 then [.x f.xc.toNat (f.pk.getLsbD 0)] else [])

end Sys2Proof.Claims

/-- R188, R214, R219: LD, LDV and LDA through a handle that allows it reserve their destination and enter the load queue, from
which they are sent; a full load queue makes the bundle wait. -/
def Sys2Proof.Claims.LoadsEnterTheLoadQueue : Prop :=
  ∀ (ins : Pre → FmtCH → Instr) (acq : Bool), (ins, acq) ∈ [(Instr.ld, false), (Instr.ldv, false), (Instr.lda, true)] →
    ∀ (p : Pre) (f : FmtCH) (s t u : State) (vs : List V512) (c id : Nat) (h : Handle),
    Ready p 0 (chIdx f) s vs t → OnCore s c f.h h → HandleAllows h (chEA f vs) (bytesOf f.sz) true false →
    let pa := h.pa + (chEA f vs).toNat
    let q : QName := if f.sz = 7 then ⟨.v, f.reg.toNat⟩ else s.xq (.core c) (f.reg.toNat % 64)
    ((s.core c).ldq.length < 64 → reserve t (.core c) q (s.at + latFor s c pa f.lat) = some (id, u) →
      Gives (ins p f) s (fun w => ∃ x : Access, (w.core c).ldq = (u.core c).ldq ++ [x] ∧ (w.core c).seq = (u.core c).seq ∧
        x.id = s.nextId ∧ w.nextId = s.nextId + 1 ∧ x.src = .core c ∧ x.kind = .load ∧ x.pa = pa ∧ x.size = bytesOf f.sz ∧
        x.land = .entry q id f.sz ∧ x.acquire = (acq && inReach s.cur.scope c pa) ∧
        x.late = s.at + latFor s c pa f.lat ∧ x.ser = 2 * (s.core c).nextSer ∧ sameBytes s w)) ∧
    (64 ≤ (s.core c).ldq.length → reserve t (.core c) q (s.at + latFor s c pa f.lat) = some (id, u) → exec (ins p f) s = .next s)

/-- R188, R220, R380: ST, STV and STL enter the store queue behind the stores before them, or, once a restart mark has issued,
the gated store buffer, which is GATE_OVERFLOW beyond 64. -/
def Sys2Proof.Claims.HandleStoresEnterTheirQueue : Prop :=
  ∀ (ins : Pre → FmtCH → Instr) (rel : Bool), (ins, rel) ∈ [(Instr.st, false), (Instr.stv, false), (Instr.stl, true)] →
    ∀ (p : Pre) (f : FmtCH) (s t : State) (vs : List V512) (d : V512) (c : Nat) (h : Handle),
    Ready p 0 (chIdx f ++ [if f.sz = 7 then .v ⟨f.reg, false, 7⟩ else .x (f.reg.toNat % 64) false]) s (vs ++ [d]) t →
    vs.length = (if f.nx then 0 else 1) → OnCore s c f.h h → HandleAllows h (chEA f vs) (bytesOf f.sz) false true →
    let pa := h.pa + (chEA f vs).toNat
    let ok := fun x : Access => x.kind = .store ∧ x.pa = pa ∧ x.size = bytesOf f.sz ∧ x.data = d ∧ x.land = .none ∧
      x.release = (rel && inReach s.cur.scope c pa) ∧ x.ser = 2 * (s.core c).nextSer ∧ x.id = s.nextId
    (((s.core c).snap = none ∨ s.cur.fin = true) → (s.core c).stq.length < 64 →
      (∀ y ∈ (s.core c).stq, y.ser ≠ 2 * (s.core c).nextSer) →
      Gives (ins p f) s (fun w => ∃ x, (w.core c).stq = (s.core c).stq ++ [x] ∧ ok x ∧ (w.core c).gated = (s.core c).gated ∧
        (w.core c).seq = (t.core c).seq ∧ sameBytes s w)) ∧
    (((s.core c).snap = none ∨ s.cur.fin = true) → 64 ≤ (s.core c).stq.length → exec (ins p f) s = .next s) ∧
    ((s.core c).snap.isSome → s.cur.fin = false → (s.core c).gated.length < 64 →
      (∀ y ∈ (s.core c).gated, y.ser ≠ 2 * (s.core c).nextSer) →
      Gives (ins p f) s (fun w => ∃ x, (w.core c).gated = (s.core c).gated ++ [x] ∧ ok x ∧ (w.core c).stq = (s.core c).stq ∧
        (w.core c).seq = (t.core c).seq ∧ sameBytes s w)) ∧
    ((s.core c).snap.isSome → s.cur.fin = false → 64 ≤ (s.core c).gated.length → Traps (ins p f) p s 0x11 FRec.none)

namespace Sys2Proof.Claims

/-- The faults of an access of n bytes at an offset through a handle, in their order, with the record of R377 (R189, R230, R338). -/
abbrev HandleFaults (i : Instr) (p : Pre) (s : State) (h : Handle) (off : Int) (n : Nat) (rd wr noHost : Bool) : Prop :=
  let rec_ := fun (pa perm : Nat) => { FRec.none with
    kind := 1, slot := p.pos, r1 := BitVec.ofNat 64 pa,
    r0 := BitVec.ofNat 64 ((h.va + off).toNat % 2 ^ 56 + perm * 2 ^ 56 + (if wr then 2 ^ 57 else 0)) }
  let out := noHost = true ∧ paClass h.pa = 12
  let fits := 0 ≤ off ∧ off + n ≤ (if h.large then 2 ^ 25 else 2 ^ 16)
  (h.valid = false → Traps i p s h.cause { rec_ 0 0 with page := some (h.va / pageSize h.large, h.large) }) ∧
  (h.valid = true → out → Traps i p s 0x0D (rec_ (h.pa + off).toNat 0)) ∧
  (h.valid = true → ¬ out → ¬ fits → Traps i p s 0x0C (rec_ (h.pa + off).toNat 0)) ∧
  (h.valid = true → ¬ out → fits → off % n ≠ 0 → Traps i p s 0x0B (rec_ (h.pa + off).toNat 0)) ∧
  (h.valid = true → ¬ out → fits → off % n = 0 → (rd = true ∧ h.read = false ∨ wr = true ∧ h.write = false) →
    Traps i p s 0x0F (rec_ (h.pa + off).toNat 1))

end Sys2Proof.Claims

/-- R189, R230, R338: an access through a handle that is not valid takes the handle's cause; an atomic, an ASWAPV or a WAITV at host
memory is HANDLE_FAULT; an access outside its page is BOUNDS, one not aligned ALIGN, one that the page does not allow PAGE_FAULT, in
this order, with the record of R377; of an invalid handle the model keeps the page as well (R336). -/
def Sys2Proof.Claims.HandleFaultsTrapInOrder : Prop :=
  ∀ (p : Pre) (s t : State) (vs : List V512) (c : Nat) (h : Handle),
    (∀ ins ∈ [Instr.ld, Instr.ldv, Instr.lda, Instr.gset, Instr.dld], ∀ f : FmtCH, Ready p 0 (chIdx f) s vs t → OnCore s c f.h h →
      HandleFaults (ins p f) p s h (chEA f vs) (bytesOf f.sz) true false false) ∧
    (∀ ins ∈ [Instr.st, Instr.stv, Instr.stl], ∀ f : FmtCH,
      Ready p 0 (chIdx f ++ [if f.sz = 7 then .v ⟨f.reg, false, 7⟩ else .x (f.reg.toNat % 64) false]) s vs t → OnCore s c f.h h →
      HandleFaults (ins p f) p s h (chEA f vs) (bytesOf f.sz) false true false) ∧
    (∀ r ∈ atomRows, ∀ f : FmtCA, Ready p 0 (atomSrcs r f) s vs t → OnCore s c f.h h →
      HandleFaults (r.ins p f) p s h ((vs.getD 0 0).setWidth 64).toInt (if f.wd then 8 else 4) true true true) ∧
    (∀ f : FmtCA, Ready p 0 [.x f.xo.toNat (f.pk.getLsbD 2), .x f.xv.toNat (f.pk.getLsbD 1)] s vs t → OnCore s c f.h h →
      HandleFaults (.waitv p f) p s h ((vs.getD 0 0).setWidth 64).toInt (if f.wd then 8 else 4) true false true) ∧
    (∀ f : FmtCH, Ready p 0 (chIdx f ++ [.v ⟨f.reg, false, 7⟩]) s vs t → OnCore s c f.h h →
      HandleFaults (.aswapv p f) p s h (chEA f vs) 64 true true true)

/-- R190, R192: GSET and DLD enter the load queue and leave a plain-register write that waits for their reply. -/
def Sys2Proof.Claims.RegisterLoadsWaitForTheirReply : Prop :=
  ∀ (p : Pre) (f : FmtCH) (s t : State) (vs : List V512) (c : Nat) (h : Handle),
    Ready p 0 (chIdx f) s vs t → OnCore s c f.h h → HandleAllows h (chEA f vs) (bytesOf f.sz) true false →
    (s.core c).ldq.length < 64 →
    let pa := h.pa + (chEA f vs).toNat
    ∀ (i : Instr) (wr : RegWr) (land : Landing),
      (i, wr, land) ∈ [(Instr.gset p f, RegWr.stream (f.reg.toNat % 32) none, Landing.stream (f.reg.toNat % 32) s.nextId),
                       (Instr.dld p f, RegWr.desc (f.reg.toNat % 16) 0 none, Landing.desc (f.reg.toNat % 16) s.nextId)] →
      Gives i s (fun w => ∃ x : Access, (w.core c).ldq = (s.core c).ldq ++ [x] ∧ x.id = s.nextId ∧ x.kind = .load ∧
        x.pa = pa ∧ x.size = bytesOf f.sz ∧ x.land = land ∧
        { id := s.nextId, due := s.at + latFor s c pa f.lat, wr := wr, ready := false, ser := (s.core c).nextSer,
          slot := p.pos, fill := none } ∈ (w.core c).seq.pend ∧ sameBytes s w)

/-- R227, R230, R380: an atomic with a result reserves its destination and enters the store queue; one without enters the store
queue or the gated store buffer. Its target must allow reading and writing, and is not host memory (HandleFaultsTrapInOrder). -/
def Sys2Proof.Claims.AtomicsEnterTheStoreQueue : Prop :=
  ∀ r ∈ atomRows, ∀ (p : Pre) (f : FmtCA) (s t : State) (vs : List V512) (c : Nat) (h : Handle),
    Ready p 0 (atomSrcs r f) s vs t → OnCore s c f.h h →
    let off := ((vs.getD 0 0).setWidth 64).toInt
    let n := if f.wd then 8 else 4
    let pa := h.pa + off.toNat
    let ok := fun x : Access => x.kind = .atomic r.op f.wd ∧ x.pa = pa ∧ x.size = n ∧ x.data = vs.getD 1 0 ∧
      x.cmp = (vs.getD 2 0).setWidth 64 ∧ x.id = s.nextId
    (HandleAllows h off n true true → paClass h.pa ≠ 12 → (s.core c).stq.length < 64 →
      (∀ y ∈ (s.core c).stq, y.ser ≠ 2 * (s.core c).nextSer) →
      (f.nr = false → ∀ id u, reserve t (.core c) (s.xq (.core c) f.xd.toNat) (s.at + latFor s c pa f.lat) = some (id, u) →
        Gives (r.ins p f) s (fun w => ∃ x, (w.core c).stq = (s.core c).stq ++ [x] ∧ ok x ∧ (w.core c).seq = (u.core c).seq ∧
          x.land = .entry (s.xq (.core c) f.xd.toNat) id (if f.wd then 3 else if r.op = 0x19 ∨ r.op = 0x1A then 6 else 2) ∧
          sameBytes s w)) ∧
      (f.nr = true → (s.core c).snap = none →
        Gives (r.ins p f) s (fun w => ∃ x, (w.core c).stq = (s.core c).stq ++ [x] ∧ ok x ∧ x.land = .none ∧ sameBytes s w))) ∧
    (HandleAllows h off n true true → paClass h.pa ≠ 12 → f.nr = true → (s.core c).snap.isSome → s.cur.fin = false →
      (s.core c).gated.length < 64 → (∀ y ∈ (s.core c).gated, y.ser ≠ 2 * (s.core c).nextSer) →
      Gives (r.ins p f) s (fun w => ∃ x, (w.core c).gated = (s.core c).gated ++ [x] ∧ ok x ∧ x.land = .none ∧
        (w.core c).stq = (s.core c).stq ∧ sameBytes s w))

/-- R229: ASWAPV takes the oldest entry of vN and reserves its next one. -/
def Sys2Proof.Claims.AswapvExchangesAVector : Prop :=
  ∀ (p : Pre) (f : FmtCH) (s t u : State) (vs : List V512) (d : V512) (c id : Nat) (h : Handle),
    Ready p 0 (chIdx f ++ [.v ⟨f.reg, false, 7⟩]) s (vs ++ [d]) t → vs.length = (if f.nx then 0 else 1) →
    OnCore s c f.h h → f.sz = 7 → HandleAllows h (chEA f vs) 64 true true → paClass h.pa ≠ 12 →
    (s.core c).stq.length < 64 → (∀ y ∈ (s.core c).stq, y.ser ≠ 2 * (s.core c).nextSer) →
    let pa := h.pa + (chEA f vs).toNat
    reserve t (.core c) ⟨.v, f.reg.toNat⟩ (s.at + latFor s c pa f.lat) = some (id, u) →
    Gives (.aswapv p f) s (fun w => ∃ x : Access, (w.core c).stq = (s.core c).stq ++ [x] ∧ x.kind = .swapv ∧ x.pa = pa ∧
      x.size = 64 ∧ x.data = d ∧ x.land = .entry ⟨.v, f.reg.toNat⟩ id 7 ∧ (w.core c).seq = (u.core c).seq ∧ sameBytes s w)

/-- R216, R221, R231: MARK and FENCE leave an ordering point; WAITV enters the load queue and the core waits for its reply. -/
def Sys2Proof.Claims.OrderingFormsAndWaitv : Prop :=
  ∀ (p : Pre) (s : State) (c : Nat), s.Alone → slotTrue p 0 s = true → s.cur.agent = .core c →
    Gives (.mark p) s (fun t => (t.core c).ords = (s.core c).ords ++ [{ ser := 2 * (s.core c).nextSer + 1, kind := .mark }] ∧
      sameBytes s t) ∧
    (∀ f : FmtCF, Gives (.fence p f) s (fun t => (t.core c).ords = (s.core c).ords ++
      [{ ser := 2 * (s.core c).nextSer + 1, kind := .fence f.kind s.cur.scope }] ∧ sameBytes s t)) ∧
    (∀ (f : FmtCA) (t : State) (vs : List V512) (h : Handle),
      ReadsTo p [.x f.xo.toNat (f.pk.getLsbD 2), .x f.xv.toNat (f.pk.getLsbD 1)] s vs t → OnCore s c f.h h →
      HandleAllows h ((vs.getD 0 0).setWidth 64).toInt (if f.wd then 8 else 4) true false → paClass h.pa ≠ 12 →
      (s.core c).ldq.length < 64 →
      Gives (.waitv p f) s (fun w => ∃ x : Access, (w.core c).ldq = (s.core c).ldq ++ [x] ∧
        (w.core c).waits = (s.core c).waits ++ [.waitv x] ∧ x.kind = .waitv f.xd.toNat f.wd ∧
        x.pa = h.pa + ((vs.getD 0 0).setWidth 64).toInt.toNat ∧ x.data = vs.getD 1 0 ∧ x.land = .wait ∧ sameBytes s w))

/-! ## Accesses at their homes -/

namespace Sys2Proof.Claims

/-- Dome memory answers an access of n bytes that lies in one block: the block stands in a formatted dome below its size, is
neither donated nor blocked, and no write of the dome waits for units (R193, R202, R204, R208). -/
abbrev DomeAnswers (s : State) (pa n : Nat) : Prop :=
  paClass pa = 0 ∧ pa / 2 ^ 37 < 128 ∧ pa % 2 ^ 37 + n ≤ s.capOf (domeOf pa) ∧ 0 < n ∧ pa % 256 + n ≤ 256 ∧
    s.donatedAt (pa / 256 * 256) = false ∧ bankBlocked s (pa / 256 * 256) = false ∧ (s.dome (domeOf pa)).waiting = []

/-- The overflow units that the block of a write needs beyond those it holds (R200). -/
abbrev moreUnits (s : State) (pa : Nat) (m : Memory) : Nat :=
  ovfNeed (sectorsOf (blockWords m (pa / 256 * 256))) - ((s.dome (domeOf pa)).block (blockOf pa)).ovf.length

/-- A request that may be served now: it arrived in an earlier cycle, and none that came before it stands over its block. -/
abbrev Served (s : State) (r : Nat) (x : Access) : Prop :=
  s.reqs.find? (fun y => y.id == r) = some x ∧ x.id = r ∧ mayServe s x = true ∧ arrivedOver s (whoReq x) x.pa x.size = false

/-- The pattern of a stream word, at its first element; none where it breaks the limits of R52 and R190. -/
abbrev streamWith (word : Nat) : Option Stream :=
  let w := word % 2 ^ 8
  let n := word / 2 ^ 8 % 2 ^ 8
  let P := word / 2 ^ 16 % 2 ^ 8
  let o := word / 2 ^ 24 % 2 ^ 8
  let start := word / 2 ^ 32
  if 1 ≤ w ∧ w ≤ 16 ∧ 1 ≤ n ∧ n * w ≤ P ∧ P ≤ 128 ∧ o < P ∧ start ≤ 524287 then
    some { w := w, n := n, period := P, first := o, start := start, pos := 0, poison := none }
  else none

/-- The request has left, and its reply carries data. -/
abbrev Replies (t : State) (x : Access) (data : V512) (poison : Bool) : Prop :=
  (∀ y ∈ t.reqs, y.id ≠ x.id) ∧ ∃ y ∈ t.reps, y.acc = x ∧ y.data = data ∧ y.poison = poison ∧ y.retry = false

end Sys2Proof.Claims

/-- R200, R215, R356: a request that has been sent arrives at its home, no earlier than what its source sent to its bytes before it
and, in a deterministic group, than its stamp and than the accesses of earlier stamps to its bytes. -/
def Sys2Proof.Claims.RequestsArriveAtTheirHome : Prop :=
  ∀ (s : State) (r : Nat) (x : Access), s.reqs.find? (fun y => y.id == r) = some x → x.came = none →
    (∀ i ∈ [Instr.homeAccess r, Instr.homeAtomic r],
      (mayArrive s x = true → Gives i s (fun t =>
        t = { s with reqs := s.reqs.map (fun y => if y.id = r then { y with came := some s.now } else y) })) ∧
      (mayArrive s x = false → exec i s = .next s)) ∧
    (stampGroup s x = none → (∀ y ∈ s.reqs, y.src = x.src → y.id ≠ r → y.came = none → y.pa + y.size ≤ x.pa ∨ x.pa + x.size ≤ y.pa) →
      mayArrive s x = true) ∧
    (∀ pre y post, s.reqs = pre ++ y :: post → x ∈ post → (∀ z ∈ pre ++ [y], z.id ≠ r) → y.src = x.src → y.came = none →
      y.pa < x.pa + x.size → x.pa < y.pa + y.size → mayArrive s x = false) ∧
    (∀ n v, stampGroup s x = some (n, v) → (v < x.stamp ∨ ∃ y ∈ s.reqs, y.id ≠ r ∧ y.came = none ∧ y.stamp < x.stamp ∧
        y.pa < x.pa + x.size ∧ x.pa < y.pa + y.size ∧ ∃ w, stampGroup s y = some (n, w)) →
      mayArrive s x = false)

/-- R188, R198, R212: a load at a dome reads its bytes, poisoned where its block is; a store writes them, in one step, and its
block takes the sectors of its new contents; no other byte changes. -/
def Sys2Proof.Claims.HomesServeLoadsAndStores : Prop :=
  ∀ (s : State) (r : Nat) (x : Access), Served s r x → DomeAnswers s x.pa x.size →
    (x.kind = .load → Gives (.homeAccess r) s (fun t =>
      Replies t x (BitVec.ofNat 512 (s.mem.num x.pa x.size)) (s.poisoned (x.pa / 256 * 256)) ∧ sameBytes s t)) ∧
    (x.kind = .store → s.poisoned (x.pa / 256 * 256) = false → s.memOk →
      moreUnits s x.pa (s.mem.write x.pa (toBytes x.data.toNat x.size)) ≤ (s.dome (domeOf x.pa)).poolFree →
      Gives (.homeAccess r) s (fun t => Replies t x 0 false ∧
        t.mem.read x.pa x.size = toBytes x.data.toNat x.size ∧ sameOutside s t x.pa x.size ∧
        ((t.dome (domeOf x.pa)).block (blockOf x.pa)).s = sectorsOf (blockWords t.mem (x.pa / 256 * 256)))) ∧
    (x.kind = .store → s.poisoned (x.pa / 256 * 256) = true →
      Gives (.homeAccess r) s (fun t => Replies t x 0 true ∧ sameBytes s t))

/-- R188, R212, R401, R402: the same at a CLM, at the host and at a peer whose link is up. -/
def Sys2Proof.Claims.OtherHomesServeLoadsAndStores : Prop :=
  ∀ (s : State) (r : Nat) (x : Access), Served s r x → paClass x.pa ≠ 0 → homeKnown s x.pa x.size = true →
    (x.kind = .load → Gives (.homeAccess r) s (fun t =>
      Replies t x (BitVec.ofNat 512 (s.mem.num x.pa x.size)) (s.badUnder x.pa x.size) ∧ sameBytes s t)) ∧
    (x.kind = .store → s.bad = [] → s.memOk →
      Gives (.homeAccess r) s (fun t => Replies t x 0 false ∧
        t.mem.read x.pa x.size = toBytes x.data.toNat x.size ∧ sameOutside s t x.pa x.size ∧ t.poison = s.poison))

/-- R231: a WAITV whose condition holds is answered at once; one whose condition does not hold watches its word at its home, and
a home that holds all its watches answers with a retry. -/
def Sys2Proof.Claims.HomesWatchForWaitv : Prop :=
  ∀ (s : State) (r cond : Nat) (wide : Bool) (x : Access), Served s r x → x.kind = .waitv cond wide →
    DomeAnswers s x.pa x.size → x.size = (if wide then 8 else 4) → s.poisoned (x.pa / 256 * 256) = false →
    (condMet cond (8 * x.size) (s.mem.num x.pa x.size) (x.data.toNat % 2 ^ (8 * x.size)) = true →
      Gives (.homeAccess r) s (fun t => Replies t x 0 false ∧ sameBytes s t)) ∧
    (condMet cond (8 * x.size) (s.mem.num x.pa x.size) (x.data.toNat % 2 ^ (8 * x.size)) = false →
      ((s.dome (domeOf x.pa)).watches.length < 1024 → Gives (.homeAccess r) s (fun t =>
        (t.dome (domeOf x.pa)).watches = (s.dome (domeOf x.pa)).watches ++ [{ acc := x }] ∧
        (∀ y ∈ t.reqs, y.id ≠ x.id) ∧ t.reps = s.reps ∧ sameBytes s t)) ∧
      (1024 ≤ (s.dome (domeOf x.pa)).watches.length → Gives (.homeAccess r) s (fun t =>
        ∃ y ∈ t.reps, y.acc = x ∧ y.retry = true ∧ sameBytes s t)))

/-- R226 to R229: an atomic at a dome answers the old word and writes what its row computes from it, in one step; an ACAS that
does not match writes nothing; an exchange swaps 64 bytes. -/
def Sys2Proof.Claims.HomesPerformAtomics : Prop :=
  ∀ (s : State) (r : Nat) (x : Access), Served s r x → DomeAnswers s x.pa x.size → s.memOk →
    s.poisoned (x.pa / 256 * 256) = false →
    (∀ row ∈ atomRows, ∀ wide, x.kind = .atomic row.op wide → x.size = (if wide then 8 else 4) →
      (row.op = 0x22 → wide = false) →
      let w := 8 * x.size
      let old := s.mem.num x.pa x.size
      (∀ v, row.new w old (x.data.toNat % 2 ^ w) (x.cmp.toNat % 2 ^ w) = some v →
        moreUnits s x.pa (s.mem.write x.pa (toBytes v x.size)) ≤ (s.dome (domeOf x.pa)).poolFree →
        Gives (.homeAtomic r) s (fun t => Replies t x (BitVec.ofNat 512 old) false ∧ t.mem.num x.pa x.size = v % 2 ^ w ∧
          sameOutside s t x.pa x.size)) ∧
      (row.new w old (x.data.toNat % 2 ^ w) (x.cmp.toNat % 2 ^ w) = none →
        Gives (.homeAtomic r) s (fun t => Replies t x (BitVec.ofNat 512 old) false ∧ sameBytes s t))) ∧
    (x.kind = .swapv → x.size = 64 →
      moreUnits s x.pa (s.mem.write x.pa (toBytes x.data.toNat 64)) ≤ (s.dome (domeOf x.pa)).poolFree →
      Gives (.homeAtomic r) s (fun t => Replies t x (BitVec.ofNat 512 (s.mem.num x.pa 64)) false ∧
        t.mem.num x.pa 64 = x.data.toNat ∧ sameOutside s t x.pa 64))

/-- R101, R130, R190, R192, R214, R231, R385: the head of a queue that nothing holds back is sent; a reply lands in the entry that
its access reserved, that of an overflow FILL with the bytes forwarded to it; that of a GSET gives its register the pattern of its
word, or none where the word breaks its limits, that of a DLD its 64 bytes; the last shadow entry that lands late lets a UIRET
return; a WAITV that was told to retry is sent again after 64 cycles. -/
def Sys2Proof.Claims.AccessesAreSentAndLand : Prop :=
  (∀ (s : State) (c : Nat) (x : Access) (rest : List Access), (s.core c).ldq = x :: rest → sendable s (.core c) false x = true →
    let y := if x.stamp ≤ s.vccOf c then { x with stamp := s.vccOf c, held := true } else x
    Gives (.queueSend (.core c) false) s (fun t => (t.core c).ldq = rest ∧ t.reqs = s.reqs ++ [y] ∧
      (t.core c).out = (s.core c).out ++ [y] ∧ (t.core c).stq = (s.core c).stq ∧ sameBytes s t)) ∧
  (∀ (s : State) (c : Nat) (x : Access) (rest : List Access), (s.core c).stq = x :: rest → sendable s (.core c) true x = true →
    let y := if x.stamp ≤ s.vccOf c then { x with stamp := s.vccOf c, held := true } else x
    Gives (.queueSend (.core c) true) s (fun t => (t.core c).stq = rest ∧ t.reqs = s.reqs ++ [y] ∧
      (t.core c).out = (s.core c).out ++ [y] ∧ (t.core c).ldq = (s.core c).ldq ∧ sameBytes s t)) ∧
  (∀ (s : State) (c n id : Nat) (q : QName) (sz : BitVec 3) (y : Reply),
    s.reps.find? (fun r => r.acc.id == n) = some y → y.acc.src = .core c → y.acc.land = .entry q id sz → y.abandoned = false →
    Wait.uiret ∉ (s.core c).waits →
    Gives (.replyLands n) s (fun t =>
      t.entries (.core c) q = (s.entries (.core c) q).map (fun e => if e.id = id then
        { e with data := some (loaded sz (bytesOf sz) y.data.toNat), poison := if y.poison then some y.acc.pa else none } else e) ∧
      (∀ q', q' ≠ q → t.entries (.core c) q' = s.entries (.core c) q') ∧
      t.reps = s.reps.filter (fun r => r.acc.id != n) ∧ sameBytes s t)) ∧
  (∀ (s : State) (c n id : Nat) (q : QName) (sz : BitVec 3) (fw : List (Nat × Byte)) (y : Reply),
    s.reps.find? (fun r => r.acc.id == n) = some y → y.acc.src = .core c → y.acc.land = .fill q id sz fw →
    y.abandoned = false → y.poison = false → y.acc.size = bytesOf sz → Wait.uiret ∉ (s.core c).waits →
    Gives (.replyLands n) s (fun t => ∃ bs : List Byte, bs.length = bytesOf sz ∧
      (∀ j, j < bytesOf sz → bs.getD j 0 = (look fw j).getD ((toBytes y.data.toNat (bytesOf sz)).getD j 0)) ∧
      t.entries (.core c) q = (s.entries (.core c) q).map (fun e => if e.id = id then
        { e with data := some (loaded sz (bytesOf sz) (ofBytes bs)), poison := none } else e) ∧ sameBytes s t)) ∧
  (∀ (s : State) (c n id m : Nat) (y : Reply), s.reps.find? (fun r => r.acc.id == n) = some y → y.acc.src = .core c →
    y.abandoned = false → Wait.uiret ∉ (s.core c).waits →
    let takes := fun (wr : RegWr) => Gives (.replyLands n) s (fun t =>
      (t.core c).seq.pend = (s.core c).seq.pend.map (fun w =>
        if w.id = id ∧ w.ready = false then { w with wr := wr, ready := true } else w) ∧ sameBytes s t)
    (y.acc.land = .stream m id → y.poison = false → takes (.stream m (streamWith (y.data.toNat % 2 ^ 64)))) ∧
    (y.acc.land = .stream m id → y.poison = true → ∃ g : Stream, g.poison = some y.acc.pa ∧ takes (.stream m (some g))) ∧
    (y.acc.land = .desc m id → takes (.desc m y.data (if y.poison then some y.acc.pa else none)))) ∧
  (∀ (s : State) (c n id : Nat) (q : QName) (sz : BitVec 3) (y : Reply),
    s.reps.find? (fun r => r.acc.id == n) = some y → y.acc.src = .core c → y.acc.land = .entry q id sz → y.abandoned = false →
    (s.core c).mode = .run → (s.core c).waits = [.uiret] → (s.core c).savedWaits = [] → (s.core c).finWait = false →
    (∀ v po, shadowLanded ((landEntry s (.core c) q id v po).core c) = true) →
    Gives (.replyLands n) s (fun t => (t.core c).seq.pos = (s.core c).handlerPos ∧ (t.core c).seq.nextAt = s.vccOf c + 2 ∧
      (t.core c).uistat = (s.core c).uistat &&& ~~~16#64 ∧ (t.core c).waits = [] ∧ sameBytes s t)) ∧
  (∀ (s : State) (c : Nat) (x : Access), (s.core c).mode = .run → (s.core c).waits = [.waitv x] → x.retry = true → x.late ≤ s.vccOf c →
    Gives (.waitvRetry c) s (fun t => ∃ y : Access, (t.core c).ldq = (s.core c).ldq ++ [y] ∧
      (t.core c).waits = [.waitv y] ∧ y.retry = false ∧ y.id = x.id ∧ y.pa = x.pa ∧ sameBytes s t))

/-! ## Copy engines -/

namespace Sys2Proof.Claims

/-- A copy command enters its engine's queue, and its tag is pushed into q, whose entry id has been reserved in u. -/
abbrev CopyQueued (i : Instr) (s u : State) (c e : Nat) (recs : List CopyRec) (sum : Bool) (value : BitVec 32) (q : QName)
    (id : Nat) : Prop :=
  Gives i s (fun w => ∃ run : CopyRun, (w.eng c e).queue = (s.eng c e).queue ++ [run] ∧
    run.tag = tagOf e (s.eng c e).nextSeq ∧ run.recs = recs ∧ run.sum = sum ∧ run.value = value ∧ run.started = false ∧
    run.finished = false ∧ run.ser = 2 * (s.core c).nextSer ∧
    (w.eng c e).nextSeq = ((s.eng c e).nextSeq + 1) % 2 ^ 15 ∧
    w.entries (.core c) q =
      (landEntry u (.core c) q id (BitVec.ofNat 512 (tagOf e (s.eng c e).nextSeq).toNat) none).entries (.core c) q ∧
    sameBytes s w)

/-- n records of AMEM from byte o on pass the checks of R241 and capture their pages: recs. -/
abbrev RecordsAt (s : State) (c o n : Nat) (sum : Bool) (pos : Pos) (f : FmtCE) (recs : List CopyRec) : Prop :=
  o + 128 * n ≤ 524288 ∧ o % 64 = 0 ∧ s.badUnder (localBase c 1 + o) (128 * n) = false ∧
    checkRecs pos c (s.core c) f.hs.toNat f.hd.toNat sum
      ((List.range n).map (fun j => s.mem.read (localBase c 1 + o + 128 * j) 128)) = .ok recs

/-- No destination byte of a chunk is a source byte or the byte of another destination. -/
abbrev Apart (as : List (Nat × Nat)) (n : Nat) : Prop :=
  (∀ x ∈ as, ∀ y ∈ as, x.2 + n ≤ y.1 ∨ y.1 + n ≤ x.2) ∧ as.Pairwise (fun x y => x.2 + n ≤ y.2 ∨ y.2 + n ≤ x.2)

/-- An engine of core c reaches n bytes at a: in a local memory, or at a home that answers at once (R198, R200, R202, R208, R212). -/
abbrev Reached (s : State) (c e n a : Nat) : Prop :=
  2 ^ 60 ≤ a ∨ (homeKnown s a n = true ∧ arrivedOver s (copyWho c e) a n = false ∧
    (paClass a = 0 → s.donatedAt a = false ∧ bankBlocked s a = false ∧ s.poisoned a = false ∧ (s.dome (domeOf a)).waiting = []))

/-- RWS-32 over the words of bytes (R245). -/
abbrev rwsOver (c : Nat) (bs : List Byte) : Nat :=
  (List.range (bs.length / 4)).foldl (fun c i =>
    (c * 2 % 2 ^ 32 + c / 2 ^ 31 + ofBytes ((bs.drop (4 * i)).take 4)) % 2 ^ 32) c

/-- The bit of a chunk of m bytes that the armed injector of core c inverts, as byte and bit, where it fires there (R252, R253). -/
abbrev Injects (s : State) (c e : Nat) (r : CopyRun) (m i bit : Nat) : Prop :=
  let v := (s.core c).injCtl.toNat
  v % 2 = 1 ∧ v / 2 % 2 = e ∧ (s.core c).injFrom ≤ r.issued ∧ 4 * (v / 2 ^ 7 % 2 ^ 32 + 1) ≤ runBytes r ∧
    4 * (v / 2 ^ 7 % 2 ^ 32) + v / 4 % 32 / 8 = r.bytes + i ∧ i < m ∧ bit = v / 4 % 32 % 8

/-- The bytes that a chunk reads, one after the other, as its command's cycle finds them (R224). -/
abbrev ChunkReads (s : State) (c n : Nat) (as : List (Nat × Nat)) (bs : List Byte) : Prop :=
  bs.length = as.length * n ∧ ∀ i x, as[i]? = some x →
    OldOrNew s (s.core c).detMode (laterStores (s.core c)) x.1 n ((bs.drop (i * n)).take n)

/-- The bytes that a chunk writes: those read, but for the bit that the injector inverts. -/
abbrev ChunkPuts (s : State) (c e : Nat) (r : CopyRun) (bs out : List Byte) : Prop :=
  out.length = bs.length ∧ ∀ j, j < bs.length →
    (∀ bit, Injects s c e r bs.length j bit → out.getD j 0 = bs.getD j 0 ^^^ BitVec.ofNat 8 (2 ^ bit)) ∧
    ((∀ bit, ¬ Injects s c e r bs.length j bit) → out.getD j 0 = bs.getD j 0)

/-- The command after a chunk of n elements that has written out (R238, R243, R245). -/
abbrev RunAfter (s : State) (r r' : CopyRun) (rec : CopyRec) (n : Nat) (out : List Byte) : Prop :=
  r'.tag = r.tag ∧ r'.recs = r.recs ∧ r'.bytes = r.bytes + out.length ∧ r'.since = s.now ∧
    (r.sum = true → r'.value.toNat = rwsOver r.value.toNat out) ∧ (r.sum = false → r'.value = r.value) ∧
    (r.done + n < recCount rec → r'.done = r.done + n ∧ r'.ridx = r.ridx ∧ r'.finished = false) ∧
    (r.done + n = recCount rec → r.ridx + 1 < r.recs.length → r'.done = 0 ∧ r'.ridx = r.ridx + 1 ∧ r'.finished = false) ∧
    (r.done + n = recCount rec → r.ridx + 1 = r.recs.length →
      r'.finished = true ∧ r'.status = if rec.chk = true ∧ r'.value ≠ rec.expect then 1 else 0)

end Sys2Proof.Claims

/-- R239 to R242, R245: CPY, CPY2, CPYN and CPYSUM read and check their records, capture their pages, enter the queue of their
engine and push its next tag; a record out of AMEM is BOUNDS, one off 64 bytes ALIGN, a count outside 1 to 32 ILLEGAL_FIELD. -/
def Sys2Proof.Claims.CopyFormsQueueTheirCommand : Prop :=
  ∀ (p : Pre) (f : FmtCE) (s t : State) (c : Nat), s.Alone → slotTrue p 0 s = true → s.cur.agent = .core c →
    let e := if f.eng then 1 else 0
    let q := s.xq (.core c) f.xt.toNat
    (∀ (a : V512) (recs : List CopyRec) (id : Nat) (u : State), ReadsTo p [.x f.xr.toNat f.pr] s [a] t →
      RecordsAt s c (a.toNat % 2 ^ 64) 1 false p.pos f recs → (s.eng c e).queue.length < 16 →
      reserve t (.core c) q (s.at + 1) = some (id, u) → CopyQueued (.cpy p f) s u c e recs false 0 q id) ∧
    (∀ (a b : V512) (recs : List CopyRec) (id : Nat) (u : State),
      ReadsTo p [.x f.xr.toNat f.pr, .x f.xs.toNat f.ps] s [a, b] t → (s.eng c e).queue.length < 16 →
      reserve t (.core c) q (s.at + 1) = some (id, u) →
      (RecordsAt s c (a.toNat % 2 ^ 64) 1 true p.pos f recs →
        CopyQueued (.cpysum p f) s u c e recs true (b.setWidth 32) q id) ∧
      (1 ≤ b.toNat % 2 ^ 64 → b.toNat % 2 ^ 64 ≤ 32 →
        RecordsAt s c (a.toNat % 2 ^ 64) (b.toNat % 2 ^ 64) false p.pos f recs →
        CopyQueued (.cpyn p f) s u c e recs false 0 q id) ∧
      (∀ r, cpy2Rec (a.setWidth 64) (b.setWidth 64) = some r →
        recFault p.pos c (s.core c) f.hs.toNat f.hd.toNat r = none →
        CopyQueued (.cpy2 p f) s u c e
          [{ r with spa := if r.skind = 7 then ((s.core c).handle f.hs.toNat).pa else localBase c r.skind,
                    dpa := if r.dkind = 7 then ((s.core c).handle f.hd.toNat).pa else localBase c r.dkind }] false 0 q id)) ∧
    (∀ (a : V512), ReadsTo p [.x f.xr.toNat f.pr] s [a] t →
      (524288 < a.toNat % 2 ^ 64 + 128 → Traps (.cpy p f) p s 0x0C FRec.none) ∧
      (a.toNat % 2 ^ 64 + 128 ≤ 524288 → a.toNat % 64 ≠ 0 → Traps (.cpy p f) p s 0x0B FRec.none)) ∧
    (∀ (a b : V512), ReadsTo p [.x f.xr.toNat f.pr, .x f.xs.toNat f.ps] s [a, b] t →
      ((b.toNat % 2 ^ 64 = 0 ∨ 32 < b.toNat % 2 ^ 64) → Traps (.cpyn p f) p s 0x02 FRec.none) ∧
      (∀ (i : Instr) (m : Nat), (i = .cpysum p f ∧ m = 1) ∨ (i = .cpyn p f ∧ m = b.toNat % 2 ^ 64 ∧ 1 ≤ m ∧ m ≤ 32) →
        (524288 < a.toNat % 2 ^ 64 + 128 * m → Traps i p s 0x0C FRec.none) ∧
        (a.toNat % 2 ^ 64 + 128 * m ≤ 524288 → a.toNat % 64 ≠ 0 → Traps i p s 0x0B FRec.none)))

/-- R245 to R248: CWAIT and CSTAT on a reported command push its completion word; CWAIT traps on a failed one and waits for one
that is queued, for which CSTAT shows status 6; a tag that is not in force is ILLEGAL_INDEX. -/
def Sys2Proof.Claims.CopyTagsAreAnswered : Prop :=
  ∀ (p : Pre) (f : FmtCE) (s t : State) (a : V512) (c : Nat), Ready p 0 [.x f.xr.toNat f.pr] s [a] t → s.cur.agent = .core c →
    (∀ w, tagLook (s.core c) (a.setWidth 64) = .word w →
      Pushes (.cstat p f) s t (s.xq (.core c) f.xt.toNat) (s.at + 1) (toV w) ∧
      (w.toNat / 2 ^ 32 % 8 ∈ [0, 1, 7] → Pushes (.cwait p f) s t (s.xq (.core c) f.xt.toNat) (s.at + 1) (toV w)) ∧
      (∀ st cz, (st, cz) ∈ [(2, 0x13), (3, 0x13), (4, 0x10), (5, 0x18)] → w.toNat / 2 ^ 32 % 8 = st →
        Traps (.cwait p f) p s cz { FRec.none with kind := 3, slot := p.pos, r0 := BitVec.ofNat 64 (a.toNat % 2 ^ 16 + st * 2 ^ 16) })) ∧
    (∀ r, tagLook (s.core c) (a.setWidth 64) = .queued r →
      Pushes (.cstat p f) s t (s.xq (.core c) f.xt.toNat) (s.at + 1) (toV (completionWord r 6)) ∧
      (∀ id u, reserve t (.core c) (s.xq (.core c) f.xt.toNat) (2 ^ 64) = some (id, u) →
        Gives (.cwait p f) s (fun w => ∃ src took q,
          (w.core c).waits = (s.core c).waits ++ [.cwait (a.setWidth 16) src took q id s.cur.pos p.pos] ∧
          q = s.xq (.core c) f.xt.toNat ∧ (w.core c).seq = (u.core c).seq ∧ sameBytes s w))) ∧
    (tagLook (s.core c) (a.setWidth 64) = .illegal → Traps (.cwait p f) p s 0x05 FRec.none ∧ Traps (.cstat p f) p s 0x05 FRec.none)

/-- R200, R223, R224, R236, R238, R243 to R245, R253: the head of an engine's queue starts and moves one chunk of elements at a time,
at most 64 bytes a cycle, once it reaches the chunk's memories. With rel = 1, or into a memory that its record names, it writes the
destination, and nothing else; through a handle with rel = 0 it sends the writes out. A CPYSUM folds the words that it writes, the
injector inverts one bit. A write that has left is performed later. The command is reported at its end: its completion word is
kept, UISTAT bit [0] is set, and a wait for it ends. -/
def Sys2Proof.Claims.CopyEnginesMoveAndReport : Prop :=
  (∀ (s : State) (c e : Nat) (r : CopyRun) (rest : List CopyRun), e < 2 → (s.eng c e).queue = r :: rest → r.started = false →
    enginesRun (s.core c) = true → engineStill s c e = false → r.recalled = false →
    Gives (.copyCommandStart c e) s (fun t =>
      (t.eng c e).queue = { r with started := true, since := s.now } :: rest ∧ sameBytes s t)) ∧
  (∀ (s : State) (c e : Nat) (r : CopyRun) (rest : List CopyRun) (rec : CopyRec), e < 2 → (s.eng c e).queue = r :: rest →
    (s.eng c e).left = [] → r.started = true → r.finished = false → enginesRun (s.core c) = true → engineStill s c e = false →
    r.recalled = false → r.acq = false → r.recs[r.ridx]? = some rec → rec.e ≤ 3 → s.bad = [] → s.memOk →
    keptUnits s c e = [] →
    let as := chunkAddrs rec r.done
    let n := 2 ^ rec.e
    as ≠ [] → (∀ x ∈ as, x.2 % n = 0 ∧ Reached s c e n x.1 ∧ Reached s c e n x.2) → Apart as n →
    (∀ x ∈ as, x.2 < 2 ^ 60 → paClass x.2 = 0 → 3 * as.length ≤ (s.dome (domeOf x.2)).poolFree) →
    (chunkTime s c r (n * as.length) = false → exec (.copyChunk c e) s = .next s) ∧
    (chunkTime s c r (n * as.length) = true →
      Gives (.copyChunk c e) s (fun t => ∃ bs out r', ChunkReads s c n as bs ∧ ChunkPuts s c e r bs out ∧
        RunAfter s r r' rec as.length out ∧ (t.eng c e).queue = r' :: rest ∧
        ((∃ i bit, Injects s c e r bs.length i bit) →
          (t.core c).injCtl = (s.core c).injCtl &&& ~~~1#64 ∧ (t.core c).injStat = BitVec.ofNat 64 (1 + r.tag.toNat * 2)) ∧
        ((r.rel = true ∨ rec.dkind ≠ 7) → (t.eng c e).left = [] ∧
          (∀ i x, as[i]? = some x → t.mem.read x.2 n = (out.drop (i * n)).take n) ∧
          (∀ a, (∀ x ∈ as, a < x.2 ∨ x.2 + n ≤ a) → t.mem.get a = s.mem.get a)) ∧
        (r.rel = false → rec.dkind = 7 → sameBytes s t ∧
          ∀ i x j, as[i]? = some x → j < n → ∃ o ∈ (t.eng c e).left, o.tag = r.tag ∧ ∃ g ∈ o.group,
            g.1 ≤ x.2 + j ∧ x.2 + j < g.1 + g.2.length ∧ g.2.getD (x.2 + j - g.1) 0 = out.getD (i * n + j) 0)))) ∧
  (∀ (s : State) (c e pa : Nat) (bs : List Byte) (o : CopyOut) (rest : List CopyOut), e < 2 → (s.eng c e).queue = [] →
    (s.eng c e).left = o :: rest → o.group = [(pa, bs)] → pa < 2 ^ 60 → paClass pa = 0 → bs ≠ [] → pa % 256 + bs.length ≤ 256 →
    Reached s c e bs.length pa → s.memOk →
    ovfNeed (sectorsOf (blockWords (s.mem.write pa bs) (pa / 256 * 256))) -
      ((s.dome (domeOf pa)).block (blockOf pa)).ovf.length ≤ (s.dome (domeOf pa)).poolFree →
    Gives (.copyChunk c e) s (fun t => (t.eng c e).left = rest ∧ t.mem.read pa bs.length = bs ∧ sameOutside s t pa bs.length)) ∧
  (∀ (s : State) (c e : Nat) (r : CopyRun) (rest : List CopyRun), e < 2 → (s.eng c e).queue = r :: rest → r.finished = true →
    ((s.core c).detMode = true → r.deadline ≤ s.vccOf c) → (s.core c).mode = .run →
    ((∀ w ∈ (s.core c).waits, cwaitOf r.tag w = false) →
      Gives (.copyReport c e) s (fun t => (t.eng c e).queue = rest ∧
        (t.eng c e).log = ((r.tag, completionWord r r.status) :: (s.eng c e).log).take 16 ∧
        (t.core c).uistat = (s.core c).uistat ||| 1#64 ∧ (t.core c).mode = .run ∧ (t.core c).waits = (s.core c).waits ∧
        sameBytes s t)) ∧
    (∀ src took dst eid pos slot, (s.core c).waits = [.cwait r.tag src took dst eid pos slot] → r.status ≤ 1 →
      (s.core c).finWait = false →
      Gives (.copyReport c e) s (fun t => (t.core c).mode = .run ∧ (t.core c).waits = [] ∧
        (t.core c).seq.nextAt = max (s.core c).seq.nextAt (s.vccOf c + 1) ∧
        t.entries (.core c) dst = (s.entries (.core c) dst).map (fun x =>
          if x.id = eid then { x with due := s.vccOf c + 1, data := some (toV (completionWord r r.status)) } else x) ∧
        sameBytes s t)))

/-! ## Translation -/

/-- R335, R337: XLAT on a page that the first level holds makes its handle at c + 16, on another starts a fill, for which it waits
in a deterministic launch or on a page that moves; an address of 2^56 or more is PAGE_FAULT. HREL empties a handle; HTEST writes
whether one is valid. -/
def Sys2Proof.Claims.HandleFormsWriteTheirRegister : Prop :=
  ∀ (p : Pre) (f : FmtCT) (s : State) (c : Nat), s.Alone → slotTrue p 0 s = true → s.cur.agent = .core c →
    (∀ (t : State) (a : V512), ReadsTo p [.x f.xa.toNat f.pa] s [a] t →
      let va := a.toNat % 2 ^ 64
      let size := if f.lg then 2 ^ 25 else 2 ^ 16
      (2 ^ 56 ≤ va → Writes (.xlat p f) p s t (s.at + 16) (.handle f.h.toNat
        { valid := false, cause := 0x0F, va := va % 2 ^ 56 / size * size, pa := 0, large := f.lg, read := false, write := false })) ∧
      (∀ e, va < 2 ^ 56 → tlbFind (s.core c).tlb va = some e → Gives (.xlat p f) s (fun u =>
        (∃ h : Handle, plainWrite s p (s.at + 16) (.handle f.h.toNat h) ∈ (u.core c).seq.pend ∧ h.large = f.lg ∧
          h.va = va / size * size ∧
          (e.large = f.lg → h.valid = true ∧ h.pa = e.pa ∧ h.read = e.read ∧ h.write = e.write) ∧
          (e.large ≠ f.lg → h.valid = false ∧ h.cause = 0x0F)) ∧ sameBytes s u)) ∧
      (va < 2 ^ 56 → tlbFind (s.core c).tlb va = none → Gives (.xlat p f) s (fun u =>
        (u.core c).fills = (s.core c).fills ++
          [{ id := s.nextId, va := va, large := f.lg, start := s.at, since := s.now, reg := f.h.toNat,
             pendId := s.nextId }] ∧
        (∃ w ∈ (u.core c).seq.pend, w.id = s.nextId ∧ w.due = s.at + 16 ∧ w.ready = (!(s.core c).detMode && !walkMoves s c va) ∧
          ∃ h : Handle, w.wr = .handle f.h.toNat h ∧ h.valid = false ∧ h.cause = 0x0E) ∧ sameBytes s u))) ∧
    Writes (.hrel p f) p s s (s.at + 1) (.handle f.h.toNat Handle.none) ∧
    Writes (.htest p f) p s s (s.at + 1) (.pred f.pd.toNat
      (if ((s.core c).handle f.h.toNat).valid then BitVec.allOnes 64 else 0))

/-- R334 to R336, R339, R340: a fill lands from the second level, or from a leaf that a walk finds, on which its cluster takes a
lease; one without a leaf leaves a PAGE_FAULT. A recall clears the page from a cluster's TLBs and handles; it is complete once
every holder has let go and every access to the page is performed, a WAITV that waits at it among them, and not before; the peer that
asked for it is then told. -/
def Sys2Proof.Claims.FillsAndRecallsKeepTheTlbs : Prop :=
  (∀ (s : State) (c n : Nat) (f : Fill), (s.core c).fills.find? (fun x => x.id == n) = some f → f.since + 12 ≤ s.now →
    (∀ e, tlbFind (s.cluster (c / 8)).tlb f.va = some e → f.id = n →
      Gives (.tlbFillLands c n) s (fun t => (∀ x ∈ (t.core c).fills, x.id ≠ n) ∧
        ({ e with pinned := false } ∈ (t.core c).tlb) ∧ sameBytes s t)) ∧
    (∀ l, tlbFind (s.cluster (c / 8)).tlb f.va = none → s.walk f.va = some l → l.moving = false → recallOver s l.pa = false →
      paClass l.pa = 0 → (s.dome (domeOf l.pa)).leases.length < 32768 → f.id = n →
      Gives (.tlbFillLands c n) s (fun t => (∀ x ∈ (t.core c).fills, x.id ≠ n) ∧
        (∃ e ∈ (t.core c).tlb, e.pa = l.pa ∧ e.large = l.large ∧ e.vpn = f.va / pageSize l.large ∧ e.read = l.read ∧
          e.write = l.write) ∧
        (∃ x ∈ (t.dome (domeOf l.pa)).leases, x.page = l.pa ∧ x.cluster = c / 8) ∧ sameBytes s t)) ∧
    (tlbFind (s.cluster (c / 8)).tlb f.va = none → s.walk f.va = none → f.id = n →
      Gives (.tlbFillLands c n) s (fun t => (∀ x ∈ (t.core c).fills, x.id ≠ n) ∧
        (f.va / pageSize f.large, f.large) ∈ (t.core c).noLeaf ∧ sameBytes s t))) ∧
  (∀ (s : State) (pg cl : Nat) (r : Recall), s.recalls.find? (fun x => x.page == pg) = some r → r.holders.contains cl = true →
    Gives (.leaseRecall pg cl) s (fun t =>
      (∀ e ∈ (t.cluster cl).tlb, e.pa ≠ pg) ∧
      (∀ c, c / 8 = cl → look s.cores c ≠ none → (∀ e ∈ (t.core c).tlb, e.pa ≠ pg) ∧
        ∀ h, ((t.core c).handle h).valid = true → ((t.core c).handle h).pa ≠ pg) ∧ sameBytes s t)) ∧
  (∀ (s : State) (pg : Nat) (r : Recall), s.recalls.find? (fun x => x.page == pg) = some r → r.holders = [] →
    topHolds s pg r.large = false → (∀ x ∈ s.reqs, inPage pg r.large x.pa = false) → waitvOn s pg r.large = false →
    Gives (.recallComplete pg) s (fun t => (∀ x ∈ t.recalls, x.page ≠ pg) ∧
      t.peerReps = s.peerReps ++ (if r.peer then [(peerSlot pg, some [])] else []) ∧ sameBytes s t)) ∧
  (∀ (s : State) (pg : Nat) (r : Recall), s.recalls.find? (fun x => x.page == pg) = some r →
    (r.holders ≠ [] ∨ topHolds s pg r.large = true ∨ (∃ x ∈ s.reqs, inPage pg r.large x.pa = true) ∨
      waitvOn s pg r.large = true) → exec (.recallComplete pg) s = .next s)

/-! ## T-ops -/

namespace Sys2Proof.Claims

/-- The T-op forms with their operation codes (R257, R292). -/
def topRows : List ((Pre → FmtMT → Instr) × Nat) :=
  [(.tadd, 0x10), (.tsub, 0x11), (.tmul, 0x12), (.tmax, 0x13), (.tmin, 0x14), (.tmm, 0x15), (.tred, 0x16), (.tcvt, 0x17),
   (.tcopy, 0x18), (.tsmax, 0x19), (.tact, 0x1A), (.tgv, 0x1B)]

/-- The collectives (R405). -/
def collectiveRows : List ((Pre → FmtMT → Instr) × Nat) := [(.tallred, 0x20), (.tgather, 0x21), (.tbcast, 0x22)]

/-- The descriptors that a form names are sound and read as dd, a and b; a form of one source reads its first in place of b. -/
abbrev DescsAre (s : State) (c : Nat) (f : FmtMT) (two : Bool) (dd a b : Desc) : Prop :=
  (∀ n ∈ [f.dd, f.ds1] ++ (if two then [f.ds2] else []), (descReg (s.core c) n).2 = none) ∧
    descOf (descReg (s.core c) f.dd).1 = some dd ∧ descOf (descReg (s.core c) f.ds1).1 = some a ∧
    descOf (descReg (s.core c) (if two then f.ds2 else f.ds1)).1 = some b

/-- A T-op has been issued by core c: it stands under a new number with its operands, and its tag is pushed into q. -/
abbrev TopIssued (i : Instr) (s u : State) (c op : Nat) (f : FmtMT) (dd a b : Desc) (q : QName) (id : Nat) : Prop :=
  Gives i s (fun w => ∃ t : Top, look w.tops s.nextId = some t ∧ t.op = op ∧ t.aux = f.aux ∧ t.from_ = .core c ∧
    t.tag = BitVec.ofNat 16 (s.core c).topNext ∧ t.dd = dd ∧ t.ds1 = a ∧ t.ds2 = b ∧ t.stage = .issued ∧ t.vcc = s.at ∧
    (w.core c).tops = (s.core c).tops ++ [t.tag] ∧ (w.core c).topNext = ((s.core c).topNext + 1) % 2 ^ 16 ∧
    w.entries (.core c) q = (landEntry u (.core c) q id (BitVec.ofNat 512 t.tag.toNat) none).entries (.core c) q ∧
    sameBytes s w)

/-- A T-op that stands under number n. -/
abbrev TopIs (s : State) (n : Nat) (t : Top) : Prop := look s.tops n = some t

end Sys2Proof.Claims

/-- R257 to R259, R292, R405: a T-op whose descriptors pass the checks of R259 is issued, and its tag is due at c + 1; one that
fails them traps with the cause of the check; a poisoned descriptor is ACC_ERROR; a core has at most 32 in flight. -/
def Sys2Proof.Claims.TopFormsIssue : Prop :=
  ∀ (p : Pre) (f : FmtMT) (s : State) (c : Nat), s.Alone → slotTrue p 0 s = true → s.cur.agent = .core c →
    let q := s.xq (.core c) f.xt.toNat
    (∀ x ∈ topRows, ∀ dd a b : Desc, DescsAre s c f (twoSource x.2) dd a b →
      (topCheck x.2 f.aux (some dd) (some a) (some b) = none →
        ((s.core c).tops.length < 32 → ∀ id u, reserve s (.core c) q (s.at + 1) = some (id, u) →
          TopIssued (x.1 p f) s u c x.2 f dd a b q id) ∧
        (32 ≤ (s.core c).tops.length → (reserve s (.core c) q (s.at + 1)).isSome → exec (x.1 p f) s = .next s)) ∧
      (∀ cz, topCheck x.2 f.aux (some dd) (some a) (some b) = some cz → Traps (x.1 p f) p s cz FRec.none)) ∧
    (∀ x ∈ collectiveRows, ∀ dd a b : Desc, DescsAre s c f false dd a b →
      (collectiveCheck s x.2 f.aux (some dd) (some a) = none →
        (s.core c).tops.length < 32 → ∀ id u, reserve s (.core c) q (s.at + 1) = some (id, u) →
          TopIssued (x.1 p f) s u c x.2 f dd a b q id) ∧
      (∀ cz, collectiveCheck s x.2 f.aux (some dd) (some a) = some cz → Traps (x.1 p f) p s cz FRec.none)) ∧
    (∀ x ∈ topRows ++ collectiveRows, ∀ pa, (descReg (s.core c) f.dd).2 = some pa →
      Traps (x.1 p f) p s 0x13 { FRec.none with kind := 5, slot := p.pos, r0 := BitVec.ofNat 64 (pa / 64 * 64) })

namespace Sys2Proof.Claims

/-- The dome of a virtual granule, where a leaf maps it to memory that a T-op may use (R255, R277). -/
abbrev granuleDome (s : State) (g : Nat) : Option Nat :=
  match s.topPage g false false with
  | .ok l => some (byteDome (granulePa l g))
  | .error _ => none

/-- The mapped bytes of an operand that lie at the domes q. -/
abbrev bytesAt (s : State) (runs : List (Nat × Nat × Bool)) (q : Nat → Bool) : Nat :=
  ((runs.flatMap (fun r => granules r.1 r.2.1)).map (fun g =>
    match granuleDome s g.1 with
    | some d => if q d = true then g.2 else 0
    | none => 0)).sum

/-- The least-bytes rule of R267 to R270: the operand of most bytes, the earliest of equals; the dome that holds most of it, the
lowest of equals, for a TGV that of its blocks; the class, which is rise where the pool there has a core and the form weighs more
than RISEB or no lantern pair lives there; whether nothing there executes; the bytes away from home, and all bytes. -/
abbrev LeastBytes (s : State) (op : Nat) (dd a b : Desc) (bs : List Band) (pl : Plan1) : Prop :=
  let ops := countedOps op dd a b
  let size := fun x : Nat × Desc => bytesAt s (operandRuns op bs x.1 x.2) (fun _ => true)
  let rho := if op = 0x15 then (if pl.big = 0 then dd.e 0 else if pl.big = 1 then dd.e 1 else a.e 0) else 1
  (∃ x ∈ ops, x.1 = pl.big ∧ ∀ y ∈ ops, size y ≤ size x ∧ (y.1 < pl.big → size y < size x)) ∧
  (∀ x ∈ ops, x.1 = (if op = 0x1B then 0 else pl.big) →
    let held := fun d => bytesAt s (operandRuns op bs x.1 x.2) (fun e => e == d)
    ∀ d, held d ≤ held pl.home ∧ (d < pl.home → held d < held pl.home)) ∧
  (pl.rise = true ↔ op ≠ 0x1B ∧ s.poolAt pl.home ≠ [] ∧ (16 < rho ∨ s.livePairs pl.home = [])) ∧
  (pl.noexec = true ↔ pl.rise = false ∧ s.livePairs pl.home = []) ∧
  pl.far = (ops.map (fun x => bytesAt s (operandRuns op bs x.1 x.2) (fun d => d != pl.home))).sum ∧
  pl.total = (ops.map size).sum

/-- The placement word of R277. -/
abbrev placeWordOf (pl : Plan1) (isPart : Prop) [Decidable isPart] : Nat :=
  pl.home + (if pl.rise then 1 else 0) * 2 ^ 7 + pl.big * 2 ^ 8 + (if pl.noexec then 1 else 0) * 2 ^ 14 +
    (if isPart then 1 else 0) * 2 ^ 15 + (if pl.rise then pl.total else pl.far) % 2 ^ 48 * 2 ^ 16

end Sys2Proof.Claims

/-- R276, R277: TWAIT on a T-op in flight waits, on a reported one goes on or traps with its cause and record, on a tag that is
not in force is ILLEGAL_INDEX; TWHERE pushes the placement word of the least-bytes rule 32 cycles after issue, and later by the read
of its table for a TGV, without issuing anything. -/
def Sys2Proof.Claims.TopWaitsAndTwhere : Prop :=
  (∀ (p : Pre) (f : FmtMT) (s t : State) (a : V512) (c : Nat), Ready p 0 [.x f.xt.toNat f.pt] s [a] t → s.cur.agent = .core c →
    let v := a.toNat % 2 ^ 64
    let age := ((s.core c).topNext + 2 ^ 16 - 1) % 2 ^ 16 + 2 ^ 16 - v
    ((2 ^ 16 ≤ v ∨ 2 ^ 15 ≤ age % 2 ^ 16) → Traps (.twait p f) p s 0x05 FRec.none) ∧
    (v < 2 ^ 16 → age % 2 ^ 16 < 2 ^ 15 →
      (BitVec.ofNat 16 v ∈ (s.core c).tops → Gives (.twait p f) s (fun u => ∃ src took,
        (u.core c).waits = (s.core c).waits ++ [.twait (BitVec.ofNat 16 v) src took s.cur.pos] ∧ sameBytes s u)) ∧
      (BitVec.ofNat 16 v ∉ (s.core c).tops →
        ((∀ r ∈ (s.core c).reports, r.tag.toNat ≠ v) → exec (.twait p f) s = .next t) ∧
        (∀ r, (s.core c).reports.find? (fun r => r.tag.toNat == v) = some r →
          (r.status = 0 → exec (.twait p f) s = .next t) ∧
          (r.status ≠ 0 → Traps (.twait p f) p s r.cause { kind := 4, slot := p.pos, r0 := r.r0, r1 := r.r1, r2 := r.r2 }))))) ∧
  (∀ (p : Pre) (f : FmtMT) (s : State) (c : Nat) (dd a b : Desc), s.Alone → slotTrue p 0 s = true → s.cur.agent = .core c →
    let op := f.aux.toNat % 128
    DescsAre s c f (twoSource op) dd a b → (twoSource op = false → f.ds2 = 0) →
    topCheck op 0 (some dd) (some a) (some b) = none →
    let Tells := fun bs due => ∃ pl, LeastBytes s op dd a b bs pl ∧
      Pushes (.twhere p f) s s (s.xq (.core c) f.xt.toNat) due (toV (BitVec.ofNat 64 (placeWordOf pl
        (∃ x ∈ countedOps op dd a b, ∃ r ∈ operandRuns op bs x.1 x.2, ∃ g ∈ granules r.1 r.2.1, granuleDome s g.1 = none))))
    (op ≠ 0x1B → Tells [] (s.at + 32)) ∧
    (op = 0x1B → ∀ bs, parseTable (tableWord s) a.grammar (a.e 1) = .ok bs → Tells bs (s.at + 32 + ttabOf s op (c / 64) a)) ∧
    (op = 0x1B → ∀ x, parseTable (tableWord s) a.grammar (a.e 1) = .error x →
      Pushes (.twhere p f) s s (s.xq (.core c) f.xt.toNat) (s.at + 32 + ttabOf s op (c / 64) a) (toV 0x8000#64)))

/-- The slot answers a next state in which a T-op of operation op, issued by core c, stands under a new number and counts among those
in flight; the queue that the form names holds one entry more, and every byte is as before. -/
abbrev TopGoes (i : Instr) (s : State) (c op : Nat) (f : FmtMT) : Prop :=
  ∃ w : State, exec i s = .next w ∧ (∃ t, look w.tops s.nextId = some t ∧ t.op = op ∧ t.from_ = .core c ∧ t.stage = .issued) ∧
    (w.core c).tops = (s.core c).tops ++ [BitVec.ofNat 16 (s.core c).topNext] ∧
    (w.entries (.core c) (s.xq (.core c) f.xt.toNat)).length = (s.entries (.core c) (s.xq (.core c) f.xt.toNat)).length + 1 ∧
    sameBytes s w

/-- R257, R276, R277, R292, R405: every form of the placed operations completes. TADD, TSUB, TMUL, TMAX, TMIN, TMM, TRED, TCVT, TCOPY,
TSMAX, TACT, TGV, TALLRED, TGATHER and TBCAST whose descriptors read and pass their checks, with fewer than 32 T-ops in flight and
room in their queue, answer a next state in which the T-op is issued; TWAIT on a tag in flight answers one in which the core waits,
on one that has succeeded one that goes on; TWHERE answers one with one entry more. -/
def Sys2Proof.Claims.PlacedFormsComplete : Prop :=
  (∀ (p : Pre) (f : FmtMT) (s : State) (c : Nat) (dd a b : Desc), s.Alone → slotTrue p 0 s = true → s.cur.agent = .core c →
    (s.entries (.core c) (s.xq (.core c) f.xt.toNat)).length < 4 →
    let Can := fun op : Nat => DescsAre s c f (twoSource op) dd a b ∧ (s.core c).tops.length < 32
    (Can 0x10 → topCheck 0x10 f.aux (some dd) (some a) (some b) = none → TopGoes (.tadd p f) s c 0x10 f) ∧
    (Can 0x11 → topCheck 0x11 f.aux (some dd) (some a) (some b) = none → TopGoes (.tsub p f) s c 0x11 f) ∧
    (Can 0x12 → topCheck 0x12 f.aux (some dd) (some a) (some b) = none → TopGoes (.tmul p f) s c 0x12 f) ∧
    (Can 0x13 → topCheck 0x13 f.aux (some dd) (some a) (some b) = none → TopGoes (.tmax p f) s c 0x13 f) ∧
    (Can 0x14 → topCheck 0x14 f.aux (some dd) (some a) (some b) = none → TopGoes (.tmin p f) s c 0x14 f) ∧
    (Can 0x15 → topCheck 0x15 f.aux (some dd) (some a) (some b) = none → TopGoes (.tmm p f) s c 0x15 f) ∧
    (Can 0x16 → topCheck 0x16 f.aux (some dd) (some a) (some b) = none → TopGoes (.tred p f) s c 0x16 f) ∧
    (Can 0x17 → topCheck 0x17 f.aux (some dd) (some a) (some b) = none → TopGoes (.tcvt p f) s c 0x17 f) ∧
    (Can 0x18 → topCheck 0x18 f.aux (some dd) (some a) (some b) = none → TopGoes (.tcopy p f) s c 0x18 f) ∧
    (Can 0x19 → topCheck 0x19 f.aux (some dd) (some a) (some b) = none → TopGoes (.tsmax p f) s c 0x19 f) ∧
    (Can 0x1A → topCheck 0x1A f.aux (some dd) (some a) (some b) = none → TopGoes (.tact p f) s c 0x1A f) ∧
    (Can 0x1B → topCheck 0x1B f.aux (some dd) (some a) (some b) = none → TopGoes (.tgv p f) s c 0x1B f) ∧
    (Can 0x20 → collectiveCheck s 0x20 f.aux (some dd) (some a) = none → TopGoes (.tallred p f) s c 0x20 f) ∧
    (Can 0x21 → collectiveCheck s 0x21 f.aux (some dd) (some a) = none → TopGoes (.tgather p f) s c 0x21 f) ∧
    (Can 0x22 → collectiveCheck s 0x22 f.aux (some dd) (some a) = none → TopGoes (.tbcast p f) s c 0x22 f) ∧
    (let op := f.aux.toNat % 128
     DescsAre s c f (twoSource op) dd a b → (twoSource op = false → f.ds2 = 0) →
     topCheck op 0 (some dd) (some a) (some b) = none →
     ∃ w : State, exec (.twhere p f) s = .next w ∧ sameBytes s w ∧
       (w.entries (.core c) (s.xq (.core c) f.xt.toNat)).length =
         (s.entries (.core c) (s.xq (.core c) f.xt.toNat)).length + 1)) ∧
  (∀ (p : Pre) (f : FmtMT) (s t : State) (a : V512) (c : Nat), Ready p 0 [.x f.xt.toNat f.pt] s [a] t → s.cur.agent = .core c →
    let v := a.toNat % 2 ^ 64
    v < 2 ^ 16 → (((s.core c).topNext + 2 ^ 16 - 1) % 2 ^ 16 + 2 ^ 16 - v) % 2 ^ 16 < 2 ^ 15 →
    (BitVec.ofNat 16 v ∈ (s.core c).tops → ∃ w : State, exec (.twait p f) s = .next w ∧ sameBytes s w ∧
      (w.core c).waits.length = (s.core c).waits.length + 1) ∧
    (BitVec.ofNat 16 v ∉ (s.core c).tops → (∀ r ∈ (s.core c).reports, r.tag.toNat = v → r.status = 0) →
      exec (.twait p f) s = .next t))

/-- R259, R267, R273, R275, R285, R296: a T-op whose pages its cluster has fetched, whose table reads and whose operands translate is
placed by the least-bytes rule at a home dome that can execute it, waits at the dome's input with its deadline, and enters the tile
queue in turn, in a cycle after its arrival; one that does not translate ends with status 3 and the page's address, one whose table
breaks its layout with status 4. A claimant takes a ticket of the oldest entry of its class, and reads the tile's operands once
the issuer's stores are performed. -/
def Sys2Proof.Claims.TopsArePlacedAndClaimed : Prop :=
  (∀ (s : State) (n : Nat) (t : Top), TopIs s n t → t.stage = .issued → t.op ≤ 0x1B →
    (t.op = 0x1B → issuerReady s t = true ∧ ∀ x ∈ tableSpans s t, s.mustWait (whoPlace t) x.1 x.2 = false) →
    let ops := allOps t.op t.dd t.ds1 t.ds2
    let tp := if t.op = 0x1B then tablePages s t.ds1 else []
    let ttab := ttabOf s t.op t.spire t.ds1
    let fetched := fun bs => (fetchFor t (runGranules ((if t.op == opTGV then [(t.ds1.grammar, tableSize s t.ds1, false)] else []) ++
      ops.flatMap (fun x => operandRuns t.op bs x.1 x.2))) s).1 = true
    (∀ bs, readTable s t = .ok bs → fetched bs →
      (∀ pages, grabAll s t.op t.aux bs ops tp = .ok pages →
        let pl := place s t.op t.dd t.ds1 (sitesOf t.op t.dd t.ds1 t.ds2 bs pages)
        let tf := tileFacts t.op t.aux t.dd t.ds1 t.ds2 bs
        LeastBytes s t.op t.dd t.ds1 t.ds2 bs pl ∧
        (pl.noexec = false → Gives (.topPlacement n) s (fun u =>
          (∃ v, TopIs u n v ∧ v.stage = .waiting ∧ v.home = pl.home ∧ v.rise = pl.rise ∧ v.pages = pages ∧ v.nt = tf.1 ∧
            v.deadline = t.vcc + 32 + ttab + tfar pl + texec s t.op t.ds1 pl tf.1 tf.2.1 tf.2.2) ∧
          n ∈ (u.dome pl.home).input ∧ sameBytes s u)) ∧
        (pl.noexec = true → Gives (.topPlacement n) s (fun u => (∃ v, TopIs u n v ∧ v.stage = .done ∧ v.pages = pages ∧
          v.deadline = t.vcc + 32 + ttab ∧ ∃ fl, v.fails = [fl] ∧ fl.status = 5) ∧ sameBytes s u))) ∧
      (∀ pos cz va ps, grabAll s t.op t.aux bs ops tp = .error (pos, cz, va, ps) →
        Gives (.topPlacement n) s (fun u => (∃ v, TopIs u n v ∧ v.stage = .done ∧ v.pages = ps ∧ v.deadline = t.vcc + 32 + ttab ∧
          ∃ fl, v.fails = [fl] ∧ fl.status = 3 ∧ fl.cause = cz ∧ fl.pos = pos ∧ fl.word1 = va) ∧ sameBytes s u))) ∧
    (∀ f, readTable s t = .error f → fetched [] → Gives (.topPlacement n) s (fun u => (∃ v, TopIs u n v ∧ v.stage = .done ∧
      v.deadline = t.vcc + 32 + ttab ∧ ∃ fl, v.fails = [fl] ∧ fl.pos = 0 ∧
        match f with
        | .grammar cz va => fl.status = 4 ∧ fl.cause = cz ∧ fl.word1 = va
        | .poison pa => fl.status = 1 ∧ fl.word1 = pa
        | .xlat cz va => fl.status = 3 ∧ fl.cause = cz ∧ fl.word1 = va) ∧ sameBytes s u))) ∧
  (∀ (s : State) (n : Nat) (t : Top), TopIs s n t → t.stage = .waiting → isCollective t.op = false →
    (s.dome t.home).input.head? = some n → (s.dome t.home).tileQ.length < 512 →
    (t.arrived < s.now → Gives (.topAccept n) s (fun u => TopIs u n { t with stage := .queued } ∧
      (u.dome t.home).input = (s.dome t.home).input.drop 1 ∧ (u.dome t.home).tileQ = (s.dome t.home).tileQ ++ [n] ∧
      sameBytes s u)) ∧
    (s.now ≤ t.arrived → exec (.topAccept n) s = .next s)) ∧
  (∀ (s : State) (d n place count : Nat) (w : Claimant) (t : Top) (k : Nat) (rest : List Nat),
    claimantPlace s d w = some (place, count) → claimantBusy s d w = false → (isRise w = false → (s.dome d).userPairs = none) →
    (s.dome d).tileQ = n :: rest → TopIs s n t → isCollective t.op = false → t.rise = isRise w →
    ticketFor t place count = some k → look t.claimed k = none →
    (∀ r, issuerReady s t = true → runAny s t k w = some r → Gives (.tileClaim d w) s (fun u =>
      TopIs u n { t with taken := t.taken ++ [k], claimed := t.claimed ++ [(k, r)] } ∧ sameBytes s u)) ∧
    ((issuerReady s t = false ∨ runAny s t k w = none) → Gives (.tileClaim d w) s (fun u =>
      TopIs u n { t with taken := t.taken ++ [k], claimed := t.claimed ++
        [(k, { who := w, since := s.now, got := false, out := [], under := 0, fail := none })] } ∧ sameBytes s u)))

/-- R266, R272, R278, R280: a tile that has read its operands writes its destination, but one that has
failed writes nothing; the last one of a
T-op ends it; its report, in deterministic mode not before the deadline, sets UISTAT bit [1] and is kept by its core, which
goes on where it waits for a T-op without failure. -/
def Sys2Proof.Claims.TopsCompleteAndReport : Prop :=
  (∀ (s : State) (n k : Nat) (t : Top) (r r' : TileRun), TopIs s n t → look t.claimed k = some r → r.got = false →
    issuerReady s t = true → runAny s t k r.who = some r' →
    Gives (.tileComplete n k) s (fun u => TopIs u n { t with claimed := put t.claimed k r' } ∧ sameBytes s u)) ∧
  (∀ (s : State) (n k : Nat) (t : Top) (r : TileRun), TopIs s n t → look t.claimed k = some r → r.got = true →
    t.ended + 1 ≤ t.nt →
    (∀ fl, r.fail = some fl → Gives (.tileComplete n k) s (fun u => (∃ v, TopIs u n v ∧ v.ended = t.ended + 1 ∧
      v.fails = t.fails ++ [fl] ∧ (v.stage = .done ↔ t.stage = .done ∨ t.ended + 1 = t.nt)) ∧ sameBytes s u)) ∧
    (∀ s', r.fail = none → writeTile s (whoClaim r.who false) (.tile n k) (tilePieces r.out) s none = .ok s' none →
      Gives (.tileComplete n k) s (fun u => (∃ v, TopIs u n v ∧ v.ended = t.ended + 1 ∧ v.fails = t.fails ∧
        v.under = t.under + r.under ∧ (v.stage = .done ↔ t.stage = .done ∨ t.ended + 1 = t.nt)) ∧ sameBytes s' u))) ∧
  (∀ (s : State) (n c : Nat) (t : Top), TopIs s n t → t.stage = .done → t.from_ = .core c →
    (t.detMode = true → t.deadline ≤ s.vccOf c) → (s.core c).launch = t.launch →
    (s.core c).mode = .run →
    ((∀ w ∈ (s.core c).waits, twaitOf t.tag w = false) → Gives (.topReport n) s (fun u => look u.tops n = none ∧
      (u.core c).uistat = (s.core c).uistat ||| 2#64 ∧ (u.core c).tops = (s.core c).tops.filter (· != t.tag) ∧
      (∃ r rest, (u.core c).reports = r :: rest ∧ r.tag = t.tag ∧ r.status = topStatus t) ∧
      (u.core c).qUnder = (s.core c).qUnder + t.under ∧ (u.core c).mode = .run ∧ (u.core c).waits = (s.core c).waits ∧
      sameBytes s u)) ∧
    (∀ src took pos, (s.core c).waits = [.twait t.tag src took pos] → t.fails = [] → (s.core c).finWait = false →
      Gives (.topReport n) s (fun u => (u.core c).mode = .run ∧ (u.core c).waits = [] ∧
        (u.core c).seq.nextAt = max (s.core c).seq.nextAt (s.vccOf c + 1) ∧ sameBytes s u)))

namespace Sys2Proof.Claims

/-- v comes of n values in ascending order, each taken into what the values before it gave. -/
abbrev Comes {α : Type} (step : α → α → α) (xs : Nat → α) (n : Nat) (v : α) : Prop :=
  ∃ acc : Nat → α, acc 0 = xs 0 ∧ (∀ k, k + 1 < n → acc (k + 1) = step (acc k) (xs (k + 1))) ∧ v = acc (n - 1)

/-- The same from a start of its own. -/
abbrev ComesFrom {α : Type} (start : α) (step : α → Nat → α) (n : Nat) (v : α) : Prop :=
  ∃ acc : Nat → α, acc 0 = start ∧ (∀ k, k < n → acc (k + 1) = step (acc k) k) ∧ v = acc n

/-- Sum, maximum and minimum of F32 values (R138, R140): a NaN gives the canonical NaN, and -0 is below +0. -/
abbrev sum32 (u v : FVal) : FVal := rne32 (fadd .rne u v)
abbrev larger32 (u v : FVal) : FVal := if fIsNan u = true ∨ fIsNan v = true then .nan else if floatBelow u v = true then v else u
abbrev smaller32 (u v : FVal) : FVal := if fIsNan u = true ∨ fIsNan v = true then .nan else if floatBelow v u = true then v else u

/-- 1/ln 2, and σ of R265. -/
abbrev lam : FVal := unpack fmtF32 0x3FB8AA3B
abbrev sig (v : FVal) : FVal := vrcpF (rne32 (fadd .rne fOne (vexp2F (rne32 (fmul (fneg v) lam)))))

/-- The code that a result has in an unscaled destination (R43, R260, R263). -/
abbrev CodeIs (ty : BitVec 4) (sat : Bool) (md : RMode) (v : EVal) (n : Nat) : Prop :=
  let w := 8 * laneBytes ty
  match v with
  | .int x =>
    (isInt ty = true → sat = false → (n : Int) = x % 2 ^ w) ∧ (isInt ty = true → sat = true → (n : Int) = clampTo ty x % 2 ^ w) ∧
      (isInt ty = false → n = rnd (ofInt x 0) (floatFmt ty) md)
  | .flt x =>
    (isInt ty = false → n = rnd x (floatFmt ty) md) ∧
      (isInt ty = true → match x with
        | .nan => n = 0
        | .inf neg => (n : Int) = clampTo ty (if neg then -(2 ^ 64) else 2 ^ 64) % 2 ^ w
        | .fin neg m e => (n : Int) = clampTo ty (rndInt neg m e md) % 2 ^ w)

/-- The exact value of a code of a scaled format, as R44 takes it, and a block's accumulator over its products (R44, R46). -/
abbrev codeOf (r : TileMem) (d : Desc) (x : Ix) : FVal := codeVal (if d.fmt = 0 then 5 else d.fmt - 8) (r.raw d x)
abbrev blockTerm (u v : FVal) : Int := if fIsZero u = true ∨ fIsZero v = true ∨ fIsNan u = true ∨ fIsNan v = true then 0 else fix24 (fmul u v)

end Sys2Proof.Claims

/-- R44 to R46, R260 to R266: what a tile makes of an element, and what it writes of it. TADD to TMIN are exact on unscaled integers and
rounded to F32 otherwise, a maximum or minimum by R140; TRED takes its axis in ascending order; TCVT keeps the exact value; TSMAX goes
through maximum, exponentials, sum and reciprocal; TACT applies its function; TMM adds its products one after the other, or by K-blocks
of 64 on scaled sources; TCOPY moves codes and scale bytes. A result is wrapped, saturated or rounded once into its destination, or
its block is quantised. -/
def Sys2Proof.Claims.TileElementsFollowTheirOperation : Prop :=
  ∀ (r d0 : TileMem) (aux : BitVec 8) (dd a b : Desc) (x : Ix),
    let g : Seg := ⟨x, 1⟩
    let out := fun (op : Nat) (v : EVal) => segVals r d0 op aux dd a b g = [v]
    let u := r.f32 a (a.bc x)
    (a.plainInt = true → b.plainInt = true → dd.plainInt = true →
      ∀ op f, (op, f) ∈ [(0x10, fun u v : Int => u + v), (0x11, fun u v => u - v), (0x12, fun u v => u * v),
                         (0x13, fun u v => if u ≤ v then v else u), (0x14, fun u v => if u ≤ v then u else v)] →
        out op (.int (f (r.int a (a.bc x)) (r.int b (b.bc x))))) ∧
    ((a.plainInt && b.plainInt && dd.plainInt) = false →
      ∀ op f, (op, f) ∈ [(0x10, sum32), (0x11, fun u v => sum32 u (fneg v)), (0x12, fun u v => rne32 (fmul u v)),
                         (0x13, larger32), (0x14, smaller32)] →
        out op (.flt (f u (r.f32 b (b.bc x))))) ∧
    (a.plainInt = true → dd.plainInt = true → 0 < a.e (redAxis aux) →
      ∀ f, (aux.toNat / 64, f) ∈ [(0, fun u v : Int => u + v), (1, fun u v => if u ≤ v then v else u),
                                  (2, fun u v => if u ≤ v then u else v)] →
        ∃ v, Comes f (fun k => r.int a (setDim x (redAxis aux) k)) (a.e (redAxis aux)) v ∧ out 0x16 (.int v)) ∧
    ((a.plainInt && dd.plainInt) = false → 0 < a.e (redAxis aux) →
      ∀ f, (aux.toNat / 64, f) ∈ [(0, sum32), (1, larger32), (2, smaller32)] →
        ∃ v, Comes f (fun k => r.f32 a (setDim x (redAxis aux) k)) (a.e (redAxis aux)) v ∧ out 0x16 (.flt v)) ∧
    (a.plainInt = true → out 0x17 (.int (r.int a (a.bc x)))) ∧
    (a.plainInt = false → out 0x17 (.flt (r.val a (a.bc x)))) ∧
    (x.a < a.e 0 → ∃ m S, let xs := fun k => r.f32 a { x with a := k }
      let us := fun k => vexp2F (rne32 (fmul (sum32 (xs k) (fneg m)) lam))
      Comes larger32 xs (a.e 0) m ∧ Comes sum32 us (a.e 0) S ∧ out 0x19 (.flt (rne32 (fmul (us x.a) (vrcpF S))))) ∧
    (a.plainInt = true → dd.plainInt = true → aux.toNat / 16 = 0 →
      out 0x1A (.int (if r.int a (a.bc x) ≤ 0 then 0 else r.int a (a.bc x)))) ∧
    ((a.plainInt && dd.plainInt) = false → aux.toNat / 16 = 0 →
      out 0x1A (.flt (if fIsNan u = true then .nan else if fcmp u (.fin false 0 0) = .gt then u else .fin false 0 0))) ∧
    (∀ f, (aux.toNat / 16, f) ∈ [(1, sig), (2, fun v => rne32 (fmul v (sig v))), (3, vexp2F), (4, vrcpF), (5, vrsqF),
                                 (6, fun v => rne32 (fadd .rne (fmul (.fin false 2 0) (sig (rne32 (fscale v 1)))) (.fin true 1 0)))] →
      out 0x1A (.flt (f u))) ∧
    (let C0 : FVal := if aux.getLsbD 3 then d0.f32 dd x else .fin false 0 0
     let ax := fun k => { rowA a x with a := k }
     let bx := fun k => { rowB b x with a := k }
     (a.scaled = false → 8 ≤ a.fmt → a.fmt ≤ 10 → b.scaled = false → 8 ≤ b.fmt → b.fmt ≤ 10 →
       ∃ v, ComesFrom C0 (fun C k =>
         let p := r.val a (ax k)
         let q := r.val b (bx k)
         if fIsZero p = true ∨ fIsZero q = true then C else sum32 C (rne32 (fmul p q))) (a.e 0) v ∧ out 0x15 (.flt v)) ∧
     (a.scaled = true →
       ∃ v, ComesFrom C0 (fun C j =>
         let ks := (List.range (min 64 (a.e 0 - 64 * j))).map (fun i => 64 * j + i)
         let sa := r.scale a (ax (64 * j))
         let sb := r.scale b (bx (64 * j))
         let bad := ∃ k ∈ ks, fIsZero (codeOf r a (ax k)) = false ∧ fIsZero (codeOf r b (bx k)) = false ∧
           (fIsNan (codeOf r a (ax k)) = true ∨ fIsNan (codeOf r b (bx k)) = true ∨ sa = 255 ∨ sb = 255)
         let acc := (ks.map (fun k => blockTerm (codeOf r a (ax k)) (codeOf r b (bx k)))).sum
         sum32 C (if bad then .nan else rne32 (fscale (ofInt acc (-24)) ((sa : Int) - 127 + ((sb : Int) - 127))))) a.nq v ∧
         out 0x15 (.flt v))) ∧
    (segOut r d0 0x18 aux dd a b g =
      ((r.place (dd.elemVa x), toBytes (r.raw a (a.bc x)) a.esz) ::
        (if dd.scaled then [(r.place (dd.scaleVa x), [BitVec.ofNat 8 (r.scale a (a.bc x))])] else []), 0)) ∧
    (∀ op v, op ≠ 0x18 → out op v →
      (dd.scaled = false → ∃ n, CodeIs dd.ty (aux.getLsbD 2) (rmode (aux.setWidth 2)) v n ∧
        segOut r d0 op aux dd a b g = ([(r.place (dd.elemVa x), toBytes n dd.esz)], 0))) ∧
    (∀ op (h : Seg), op ≠ 0x18 → dd.scaled = true →
      let q := quantBlock dd.ty ((segVals r d0 op aux dd a b h).map EVal.val)
      segOut r d0 op aux dd a b h = ([(r.place (dd.elemVa h.x), q.2.1.map (BitVec.ofNat 8)),
        (r.place (dd.scaleVa h.x), [BitVec.ofNat 8 q.1])], q.2.2))

/-- R294, R297: a tile of a TGV whose blocks stand reads them; in each lane of the batch the rules of a block are evaluated in
order, then each row's sum is added to its accumulator, and the tile writes every row of every lane, converted to the
destination's format. A block that breaks a rule of its layout fails the tile with its cause and word. -/
def Sys2Proof.Claims.GrammarBandsFollowTheirBlocks : Prop :=
  ∀ (s : State) (t : Top) (k : Nat) (w : Claimant) (band : Band), t.bands[k]? = some band →
    (∀ x ∈ bandSpans t band, s.mustWait (whoClaim w true) x.1 x.2 = false) →
    (∀ cz va, readBlocks (claimWord s t.pages) (t.ds1.e 0) band band.blocks = .error (.grammar cz va) →
      ∃ fl, runBand s t k w = some { who := w, since := s.now, got := true, out := [], under := 0, fail := some fl } ∧
        fl.tile = k ∧ fl.status = 4 ∧ fl.cause = cz ∧ fl.pos = 0 ∧ fl.word1 = va / 4 * 4) ∧
    ∀ gs, readBlocks (claimWord s t.pages) (t.ds1.e 0) band band.blocks = .ok gs →
    (∀ x ∈ readsPieces t.pages (batchReads t.ds2), s.badRead x.2.2.1 x.2.2.2 = false) →
    ∃ out, runBand s t k w = some { who := w, since := s.now, got := true, out := out, under := 0, fail := none } ∧
      ∀ l, l < t.ds2.e 1 → ∃ (RV : Nat → List FVal) (acc : Nat → Nat → FVal),
        let xs := fun c => (memNow s t).val t.ds2 ⟨c, l, 0, 0⟩
        let symbol := fun (b : GBlock) (rv : List FVal) (v : Nat) =>
          if 2 ^ 31 ≤ v % 2 ^ 32 then rv.getD (v % 2048) (.fin false 0 0)
          else if fIsZero (unpack fmtF16 (b.cb.getD (v % 256) 0)) = true then .fin false 0 0
          else rne32 (fmul (unpack fmtF16 (b.cb.getD (v % 256) 0)) (xs (b.col0 + v / 2 ^ 16 % 4096)))
        let sum := fun (b : GBlock) (rv : List FVal) (seq : List Nat) (v : FVal) =>
          (seq = [] → v = .fin false 0 0) ∧
            (seq ≠ [] → Comes sum32 (fun i => symbol b rv (seq.getD i 0)) seq.length v)
        (∀ j b, gs[j]? = some b → (RV j).length = b.rules.length ∧
          ∀ i seq, b.rules[i]? = some seq → sum b ((RV j).take i) seq ((RV j).getD i .nan)) ∧
        (∀ row, row < band.nrows → acc 0 row = .fin false 0 0 ∧
          (∀ j b, gs[j]? = some b → ∃ v, sum b (RV j) (b.rows.getD row []) v ∧ acc (j + 1) row = sum32 (acc j row) v) ∧
          (paOf t.pages (t.dd.elemVa ⟨band.row0 + row, l, 0, 0⟩),
            toBytes (rnd (acc gs.length row) (floatFmt t.dd.ty) (rmode (t.aux.setWidth 2))) t.dd.esz) ∈ out)

/-- R406 to R408, R410: the first T-op at its port dome takes the next step of the port, where it is a collective, and reads its
contribution once; the switch forms one result: of TALLRED element by element over the ranks in ascending order, of TGATHER the
contributions one after the other, of TBCAST that of the root. The port dome writes it once every digest agrees; a step that fails is
tried four times and then ends with status 2 and a record. -/
def Sys2Proof.Claims.CollectivesRunTheirSteps : Prop :=
  (∀ (s : State) (n : Nat) (t : Top), TopIs s n t → isCollective t.op = true →
    (t.stage = .waiting → (s.dome t.home).input.head? = some n → (s.dome t.home).tileQ.length < 512 → t.arrived < s.now →
      let step := lookD s.fw.portStep t.port 0
      Gives (.topAccept n) s (fun u => TopIs u n { t with stage := .queued, stepNo := step } ∧
        lookD u.fw.portStep t.port 0 = step + 1 ∧ (u.dome t.home).input = (s.dome t.home).input.drop 1 ∧
        (u.dome t.home).tileQ = (s.dome t.home).tileQ ++ [n] ∧ sameBytes s u)) ∧
    (t.stage = .queued → t.contrib = [] → issuerReady s t = true →
      (∀ x ∈ t.ds1.runs.flatMap (fun r => physPieces t.pages r.1 r.2.1),
        s.mustWait { kind := 3, idx := chimeDome t.port, spire := none } x.1 x.2 = false ∧ s.badRead x.1 x.2 = false) →
      Gives (.topAccept n) s (fun u => TopIs u n { t with contrib := denseBytes s.mem t.pages t.ds1 } ∧ sameBytes s u))) ∧
  (∀ (s : State) (n ranks own : Nat) (t : Top) (inp : SwitchInput), TopIs s n t → t.stage = .queued → t.result = none →
    t.contrib ≠ [] → switchOf s t.port = some (ranks, own) → 0 < ranks → inp.ranks.length = ranks →
    let cs := inp.ranks.mapIdx (fun j c => if j = own then t.contrib else c)
    let Makes := fun res : List Byte → Prop => Gives (.collectiveStep n inp) s (fun u => ∃ v r d, TopIs u n v ∧ v.result = some r ∧
      res r ∧ ComesFrom (BitVec.ofNat 64 t.stepNo)
        (fun d k => d.rotateLeft 1 + BitVec.ofNat 64 (ofBytes ((r.drop (8 * k)).take 8))) ((r.length + 7) / 8) d ∧
      (v.agree = true ↔ inp.digests.length = ranks ∧ ∀ x ∈ inp.digests, x = d) ∧ sameBytes s u)
    (t.op = 0x20 → (∀ c ∈ inp.ranks, c.length = t.contrib.length) →
      let es := t.ds1.esz
      let ed := t.dd.esz
      let x := fun i j => ofBytes (((cs.getD j []).drop (i * es)).take es)
      let code := fun r : List Byte => fun i => ofBytes ((r.drop (i * ed)).take ed)
      let md := rmode (t.aux.setWidth 2)
      Makes (fun r => r.length = t.contrib.length / es * ed ∧ ∀ i, i < t.contrib.length / es →
        (t.ds1.plainInt = true → t.dd.plainInt = true →
          ∀ f, (t.aux.toNat / 64, f) ∈ [(0, fun u v : Int => u + v), (1, fun u v => if u ≤ v then v else u),
                                        (2, fun u v => if u ≤ v then u else v)] →
            ∃ v m, Comes f (fun j => laneInt t.ds1.ty (x i j)) ranks v ∧ CodeIs t.dd.ty false md (.int v) m ∧
              code r i = m % 2 ^ (8 * ed)) ∧
        ((t.ds1.plainInt && t.dd.plainInt) = false →
          ∀ f, (t.aux.toNat / 64, f) ∈ [(0, sum32), (1, larger32), (2, smaller32)] →
            ∃ v m, Comes f (fun j => rne32 (if t.ds1.fmt ≤ 7 then ofInt (laneInt t.ds1.ty (x i j)) 0
                else laneF t.ds1.ty (x i j))) ranks v ∧ CodeIs t.dd.ty false md (.flt v) m ∧ code r i = m % 2 ^ (8 * ed)))) ∧
    (t.op = 0x21 → (∀ c ∈ inp.ranks, c.length = t.contrib.length) → Makes (fun r => r = cs.flatten)) ∧
    (t.op = 0x22 → inp.root ≠ own → t.sends = false → ∀ c, inp.ranks[inp.root]? = some c → c.length = t.contrib.length →
      Makes (fun r => r = c)) ∧
    (t.op = 0x22 → inp.root = own → own < ranks → t.sends = true → Makes (fun r => r = t.contrib))) ∧
  (∀ (s s' : State) (n : Nat) (t : Top) (r : List Byte), TopIs s n t → t.stage = .queued → isCollective t.op = true →
    t.result = some r →
    (t.agree = true →
      writeTile s { kind := 3, idx := 0, spire := none } (.tile n 0) (tilePieces (spread t.pages t.dd.runs r)) s none = .ok s' none →
      Gives (.digestConfirm n) s (fun u => TopIs u n { t with stage := .done } ∧ n ∉ (u.dome t.home).tileQ ∧ sameBytes s' u)) ∧
    (t.agree = false → exec (.digestConfirm n) s = .next s)) ∧
  (∀ (s : State) (n : Nat) (t : Top) (dis : Bool), TopIs s n t → t.stage = .queued → isCollective t.op = true → t.contrib ≠ [] →
    (if dis then t.result.isSome = true ∧ t.agree = false else t.result = none) →
    (t.retries < 3 → Gives (.collectiveRetry n dis) s (fun u =>
      TopIs u n { t with retries := t.retries + 1, result := none, agree := false } ∧ sameBytes s u)) ∧
    (3 ≤ t.retries → Gives (.collectiveRetry n dis) s (fun u => (∃ v fl, TopIs u n v ∧ v.stage = .done ∧ v.fails = [fl] ∧
      fl.status = 2) ∧ n ∉ (u.dome t.home).tileQ ∧ (∃ x, u.notes = s.notes ++ [x] ∧ x.code = 0x30 ∧
        x.w0 = BitVec.ofNat 64 (t.port + (if dis then 1 else 0) * 16 + t.stepNo % 2 ^ 32 * 2 ^ 32)) ∧ sameBytes s u)))

/-- R301, R302: VRULE reads a symbol and its control fields from b and a vector from a. A terminal contributes its codebook value times
each lane, a codebook zero +0, a nonterminal the rule values of its entry; the accumulator takes it, and with it the largest depth,
from the start at a rule's first symbol; at the last symbol of a rule its entry takes the accumulator and its depth, and no other entry
changes; the lanes are pushed four cycles after issue. A symbol that breaks its layout, its order or its depth traps with its cause. -/
def Sys2Proof.Claims.VruleStepsTheRuleUnit : Prop :=
  ∀ (p : Pre) (f : FmtV2) (s t : State) (a b : V512) (n : Nat), s.cur.agent = .lanE n →
    Ready p 4 [.v ⟨f.va, f.pa, f.ty⟩, .v ⟨f.vb, f.pb, f.ty⟩] s [a, b] t →
    let k := s.pair n
    let first := f.aux.getLsbD 0
    let last := f.aux.getLsbD 1
    let bits := fun hi lo => b.toNat / 2 ^ lo % 2 ^ (hi + 1 - lo)
    let nt : Prop := bits 31 31 = 1
    let i := bits 10 0
    let e := bits 79 64
    let d := bits 87 80
    let badLayout : Prop := bits 63 48 ≠ 0 ∨ bits 511 88 ≠ 0 ∨ bits 30 28 ≠ 0 ∨ bits 15 11 ≠ 0 ∨ (nt ∧ bits 27 16 ≠ 0) ∨
      (¬ nt ∧ bits 10 8 ≠ 0) ∨ 2048 < e
    let wrongOrder : Prop := nt ∧ e ≤ i
    let f16 := unpack fmtF16 (bits 47 32)
    let word := fun x : BitVec 32 => unpack fmtF32 x.toNat
    ∃ term acc : Nat → FVal, ∃ depth most : Nat,
      (∀ l, (nt → term l = word (lookD k.rv (16 * i + l) 0)) ∧
        (¬ nt → term l = if fIsZero f16 = true then .fin false 0 0 else rne32 (fmul f16 (unpack fmtF32 (getLane 4 a l)))) ∧
        acc l = if first then term l else sum32 (word (lookD k.racc l 0)) (term l)) ∧
      (nt → depth = (lookD k.dep i 0).toNat) ∧ (¬ nt → depth = 0) ∧ most = (if first then depth else max k.rmax.toNat depth) ∧
      let ends : Prop := last = true ∧ e < 2048
      (badLayout → Traps (.vrule p f) p s 0x17 FRec.none) ∧
      (¬ badLayout → wrongOrder → Traps (.vrule p f) p s 0x15 FRec.none) ∧
      (¬ badLayout → ¬ wrongOrder → ends → 16 < d → Traps (.vrule p f) p s 0x16 FRec.none) ∧
      (¬ badLayout → ¬ wrongOrder → ends → d ≤ 16 → d ≠ 1 + most → Traps (.vrule p f) p s 0x17 FRec.none) ∧
      (¬ badLayout → ¬ wrongOrder → (ends → d ≤ 16 ∧ d = 1 + most) →
        ∃ v : V512, LanesUnder 4 (maskOf p s) (fun l => (rnd (acc l) fmtF32 .rne : Nat)) v ∧
          ∀ id u, reserve t (.lanE n) (if f.vd.toNat = 1663 then ⟨.x, 63⟩ else ⟨.v, f.vd.toNat⟩) (s.at + 4) = some (id, u) →
            Gives (.vrule p f) s (fun w =>
              (∀ l, l < 16 → lookD (w.pair n).racc l 0 = BitVec.ofNat 32 (rnd (acc l) fmtF32 .rne)) ∧
              (w.pair n).rmax = BitVec.ofNat 32 most ∧
              (¬ ends → (w.pair n).rv = k.rv ∧ (w.pair n).dep = k.dep) ∧
              (ends → lookD (w.pair n).dep e 0 = BitVec.ofNat 8 d ∧
                (∀ l, l < 16 → lookD (w.pair n).rv (16 * e + l) 0 = BitVec.ofNat 32 (rnd (acc l) fmtF32 .rne)) ∧
                (∀ j, j < 16 * e ∨ 16 * e + 16 ≤ j → lookD (w.pair n).rv j 0 = lookD k.rv j 0) ∧
                (∀ j, j ≠ e → lookD (w.pair n).dep j 0 = lookD k.dep j 0)) ∧
              w.entries (.lanE n) (if f.vd.toNat = 1663 then ⟨.x, 63⟩ else ⟨.v, f.vd.toNat⟩) =
                (landEntry u (.lanE n) (if f.vd.toNat = 1663 then ⟨.x, 63⟩ else ⟨.v, f.vd.toNat⟩) id
                  (if f.vd.toNat = 1663 then (v.setWidth 64).setWidth 512 else v) none).entries (.lanE n)
                  (if f.vd.toNat = 1663 then ⟨.x, 63⟩ else ⟨.v, f.vd.toNat⟩) ∧ sameBytes s w))


/-! ## Freezes and the clock -/

/-- R353, R311: a late result raises a freeze of its group, and so does a tile of the lantern service that waits too long at a home;
it ends once the result has come; a power freeze stops its group for
one cycle: the next tick counts it and takes it away. -/
def Sys2Proof.Claims.FreezesStopTheirGroup : Prop :=
  (∀ (s : State) (g : Group) (d : Due) (rest : List Due), lateNow s g = d :: rest →
    Gives (.lateFreeze g) s (fun t => t.freezes = s.freezes ++
      [{ group := g, why := d.1, at_ := max d.2 (groupVcc s g), since := s.now, overAt := none }] ∧ t.cores = s.cores ∧
      t.now = s.now ∧ sameBytes s t)) ∧
  (∀ (s : State) (p : Nat) (d : Due) (rest : List Due), pairRuns (s.pair p) = true →
    lateNow s (pairGroup (s.pair p) p) = d :: rest →
    Gives (.lanternFreeze p) s (fun t => t.freezes = s.freezes ++
      [{ group := pairGroup (s.pair p) p, why := d.1, at_ := max d.2 (groupVcc s (pairGroup (s.pair p) p)), since := s.now,
         overAt := none }] ∧ t.cores = s.cores ∧ sameBytes s t)) ∧
  (∀ (s : State) (p n k : Nat), pairRuns (s.pair p) = false → lateTile s p = some (n, k) →
    Gives (.lanternFreeze p) s (fun t => t.freezes = s.freezes ++
      [{ group := pairGroup (s.pair p) p, why := .tile n k, at_ := 0, since := s.now, overAt := none }] ∧ t.cores = s.cores ∧
      sameBytes s t)) ∧
  (∀ (s : State) (g : Group), Gives (.freezeRelease g) s (fun t =>
    (∀ f ∈ s.freezes, f.group ≠ g → f ∈ t.freezes) ∧
    (∀ f ∈ s.freezes, f.group = g → freezeOver s f = false → f ∈ t.freezes) ∧
    (∀ c, g = .core c → ∀ f ∈ t.freezes, f.group = g → freezeOver s f = false) ∧
    t.cores = s.cores ∧ t.pairs = s.pairs ∧ t.now = s.now ∧ sameBytes s t)) ∧
  (∀ (s : State) (c : Nat), coreRuns (s.core c) = true → powerAsked s c = true →
    Gives (.powerFreeze c) s (fun t => t.freezes = s.freezes ++
      [{ group := s.groupOf (.core c), why := .power, at_ := s.vccOf c, since := s.now, overAt := none }] ∧
      t.cores = s.cores ∧ sameBytes s t)) ∧
  (∀ (s : State) (c : Nat) (f : Freeze), coreRuns (s.core c) = true → f ∈ s.freezes → f.group = s.groupOf (.core c) →
    f.at_ ≤ s.vccOf c → ((tickCore s c).core c).seq.vcc = s.vccOf c ∧ ((tickCore s c).core c).seq.pos = (s.core c).seq.pos ∧
    (f.why = .power → ((tickCore s c).core c).frzCnt = ((s.core c).frzCnt + 1) % 2 ^ 64) ∧
    ((∀ x ∈ s.freezes, x.group = f.group → x.why ≠ .power) →
      ((tickCore s c).core c).lateFrz = ((s.core c).lateFrz + 1) % 2 ^ 64)) ∧
  (∀ s : State, (tick s).now = s.now + 1 ∧ ∀ f ∈ (tick s).freezes, f.why ≠ .power)

/-- R355, R311: a freeze of 800,000 cycles for an access of a core ends, and the core takes FREEZE_TIMEOUT at the bundle that would
issue; the access lands nowhere any more. A core that has trapped already takes no second trap: its count rises, and in deterministic
mode the slot joins a report that has not left. -/
def Sys2Proof.Claims.FreezeTimeoutTraps : Prop :=
  ∀ (s : State) (g : Group) (f : Freeze) (c id : Nat), s.freezes.find? (fun f => f.group == g && freezeOld s f) = some f →
    f.since + 800000 ≤ s.now →
    f.why = .access c id →
    ((∀ sent, (s.core c).mode ≠ .trap sent) → Gives (.freezeTimeout g) s (fun t => f ∉ t.freezes ∧ (t.core c).epc = BitVec.ofNat 24 (s.core c).seq.pos ∧
      (∃ pos, (t.core c).faultMask = BitVec.ofNat 6 (2 ^ posBit pos) ∧
        (t.core c).cause = BitVec.ofNat 48 (0x18 * 2 ^ (8 * posBit pos))) ∧
      (t.core c).mode = .trap false ∧ (t.core c).ftoCnt = (s.core c).ftoCnt + 1 ∧ (∀ x ∈ t.reqs, x.id = id → x.land = .none) ∧
      sameBytes s t)) ∧
    (∀ sent, (s.core c).mode = .trap sent → Gives (.freezeTimeout g) s (fun t => f ∉ t.freezes ∧ (t.core c).mode = .trap sent ∧
      (t.core c).epc = (s.core c).epc ∧ (t.core c).ftoCnt = (s.core c).ftoCnt + 1 ∧
      (sent = false → (s.core c).detMode = true → ∃ pos, (t.core c).faultMask = (s.core c).faultMask ||| BitVec.ofNat 6 (2 ^ posBit pos) ∧
        causeByte (t.core c) pos = 0x18 ∧ ∀ q, q ≠ pos → causeByte (t.core c) q = causeByte (s.core c) q) ∧
      ((sent = true ∨ (s.core c).detMode = false) → (t.core c).faultMask = (s.core c).faultMask ∧ (t.core c).cause = (s.core c).cause) ∧
      (∀ x ∈ t.reqs, x.id = id → x.land = .none) ∧ sameBytes s t))

/-! ## Interrupts, the report of a trap, rollback -/

/-- R383, R384: an enabled interrupt is taken at a bundle boundary outside a quiet region: EPC takes the position of the bundle
that would issue, CAUSE the pending bits, UISTAT bit [4] is set, holds and the waits that it cancels are kept, and the bundle at
UIVEC issues two cycles later. -/
def Sys2Proof.Claims.UserInterruptEntersItsHandler : Prop :=
  ∀ (s : State) (c : Nat), intReady (s.core c) = true → s.frozen (.core c) = false → (s.core c).mode = .run →
    Gives (.userInterruptEntry c) s (fun t =>
      (t.core c).epc = BitVec.ofNat 24 (s.core c).seq.pos ∧ (t.core c).faultMask = 0 ∧
      (t.core c).cause = ((s.core c).uistat &&& 7#64).setWidth 48 ∧ (t.core c).uistat = (s.core c).uistat ||| 16#64 ∧
      (t.core c).seq.pos = (s.core c).uivec.toNat ∧ (t.core c).seq.nextAt = (s.core c).seq.vcc + 2 ∧
      (t.core c).seq.holds = [] ∧ (t.core c).savedHolds = (s.core c).seq.holds ∧ (t.core c).waits = [] ∧
      (t.core c).savedWaits = (s.core c).waits ∧
      (t.core c).handlerPos = (s.core c).seq.pos ∧ ((∀ w ∈ (s.core c).waits, waitEntry w = none) → (t.core c).seq.queues = (s.core c).seq.queues) ∧
      (t.core c).seq.preds = (s.core c).seq.preds ∧ (t.core c).gated = (s.core c).gated ∧ (∀ d, d ≠ c → t.core d = s.core d) ∧
      sameBytes s t)

/-- R378, R379, R382, R386, R388: the first report ends its launch with the first faulting slot's cause and asks its other cores to
stop; a rollback restores what the mark kept; a reload takes code and dictionary from the image in device memory; a
stop begins at a boundary, and in an ending launch in any wait; a recall that has caught a gated store comes before it. -/
def Sys2Proof.Claims.ReportsRollbacksReloadsAndStops : Prop :=
  (∀ (s : State) (c n : Nat) (L : Launch), reportReady (s.core c) = true →
    (∀ x ∈ s.cores, x.1 < c → ¬ (x.2.launch = (s.core c).launch ∧ reportReady x.2 = true)) →
    (s.core c).launch = some n → look s.launches n = some L → L.ending = none →
    Gives (.trapReport c) s (fun t => (t.core c).mode = .trap true ∧ (t.core c).waits = [] ∧
      (∃ M e, look t.launches n = some M ∧ M.ending = some e ∧
        ((s.core c).detMode = false → (∀ pos ∈ allPos, causeByte (s.core c) pos ≠ 0x19) →
          e.status = 6 ∧ e.detail = BitVec.ofNat 64 (c % 2 ^ 13 + (s.core c).epc.toNat * 2 ^ 16 + firstCause (s.core c) * 2 ^ 40 +
            (s.core c).faultMask.toNat * 2 ^ 48)) ∧
        ((∃ pos ∈ allPos, causeByte (s.core c) pos = 0x19) → e.status = 9 ∧ e.detail = BitVec.ofNat 64 c)) ∧
      (∀ d, d ≠ c → (s.core d).launch = some n → (s.core d).mode = .run → (t.core d).stopReq = true) ∧ sameBytes s t)) ∧
  (∀ (s : State) (c : Nat) (fs : List SlotFault) (x : Snapshot), (s.core c).mode = .roll fs → (s.core c).mx.fault = none →
    rollIdle s c = true → (∀ f ∈ fs, missGone (s.core c) f = false) → (s.core c).snap = some x → x.pendRegs = [] →
    Gives (.rollback c) s (fun t => (t.core c).mode = .run ∧ (t.core c).markNext = true ∧ (t.core c).seq.pos = x.pos ∧
      (t.core c).seq.nextAt = (s.core c).seq.vcc + 2 ∧ (t.core c).seq.queues = x.queues ∧ (t.core c).seq.preds = x.preds ∧
      (t.core c).loops = x.loops ∧ (t.core c).handles = x.handles ∧ (t.core c).kregs = x.kregs ∧ (t.core c).descs = x.descs ∧
      (t.core c).seq.rstack = x.rstack ∧ (t.core c).seq.holds = x.holds ∧ (t.core c).quiet = x.quiet ∧
      (t.core c).gated = [] ∧ (t.core c).fwd = [] ∧ (t.core c).uivec = x.uivec ∧
      (t.core c).uistat &&& 23#64 = (s.core c).uistat &&& 23#64 ∧ (t.core c).uistat.getLsbD 3 = x.uiEnable ∧
      (t.core c).streams = x.streams ∧ (t.core c).pendNest = x.pendNest ∧ (t.core c).actNest = x.actNest ∧
      (∀ b, b < 8 →
        let old := lookD x.bells b BellSt.start
        let kept := ((sendHeld c s).core c).bell b
        let st := (t.core c).bell b
        st.sent = kept.sent ∧ st.excused = kept.excused ∧ st.count = old.count ∧
        (old.arrived = true → old.gen < (pealOf (sendHeld c s) c b).gen → st.gen = old.gen + 1 ∧ st.arrived = false) ∧
        ((old.arrived = false ∨ (pealOf (sendHeld c s) c b).gen ≤ old.gen) → st.gen = old.gen ∧ st.arrived = old.arrived)) ∧
      sameBytes s t)) ∧
  (∀ (s : State) (c n : Nat) (L : Launch), (s.core c).mode = .reload → (s.core c).launch = some n → s.launchOf n = some L →
    (∀ img, loadImage s L.cmd.image = .ok img →
      Gives (.ibufReload c) s (fun t => (t.core c).mode = .run ∧ (t.core c).seq.code = img.code ∧
        (t.core c).seq.dict = img.dict ∧ (t.core c).badDict = [] ∧ (t.core c).seq.pos = (s.core c).seq.pos ∧ sameBytes s t)) ∧
    (loadImage s L.cmd.image = .wait → exec (.ibufReload c) s = .next s)) ∧
  (∀ (s : State) (c : Nat), stopReady (s.core c) = true → s.frozen (.core c) = false → launchEnding s (s.core c) = false →
    (s.core c).mode = .run →
    (recallFault (s.core c) = none → Gives (.coreStop c) s (fun t => (t.core c).mode = .stop false ∧
      (t.core c).waits = (s.core c).waits ∧ (∀ y, Wait.waitv y ∈ (s.core c).waits → (t.core c).epc = BitVec.ofNat 24 (s.core c).seq.pos) ∧
      sameBytes s t)) ∧
    (∀ f, recallFault (s.core c) = some f → Gives (.coreStop c) s (fun t => (t.core c).gated = [] ∧
      (t.core c).epc = BitVec.ofNat 24 (s.core c).seq.pos ∧ (t.core c).faultMask = BitVec.ofNat 6 (2 ^ posBit f.slot) ∧
      ((s.core c).detMode = false → (s.core c).snap.isSome = true → inHandler (s.core c) = false → f.frec.kind ≠ 3 →
        ∃ fs, (t.core c).mode = .roll fs) ∧
      ((s.core c).detMode = true → (t.core c).mode = .trap false ∧ causeByte (t.core c) f.slot = 0x19) ∧ sameBytes s t))) ∧
  (∀ (s : State) (c : Nat), launchEnding s (s.core c) = true → stopOpen (s.core c) = true →
    (boundary (s.core c) = true ∨ (s.core c).waits ≠ []) → (s.core c).mode = .run →
    Gives (.coreStop c) s (fun t => (t.core c).mode = .ended ∧ (t.core c).gated = [] ∧ (t.core c).waits = [] ∧ sameBytes s t))

/-! ## User lantern programs -/

/-- R307 to R309, R313: a launch's programs are loaded on the live pairs of a dome whose tile queue is empty; a token gives the
E-thread its next segment or its halt; a pair whose threads have halted and whose stores are performed is given back; a
trapped pair is recorded with every faulting slot's cause, and the first gives its launch status LANTERN. -/
def Sys2Proof.Claims.LanternProgramsRunTheirSegments : Prop :=
  (∀ (s : State) (n d : Nat) (L : Launch), look s.launches n = some L →
    L.pairsLeft.filter (fun p => p / 64 == d && (s.pair p).launch != some n) ≠ [] → (s.dome d).tileQ = [] →
    (s.dome d).userPairs = none → L.pairsLeft.Nodup →
    Gives (.lanternLoad n d) s (fun t => (t.dome d).userPairs = some n ∧
      (∀ p ∈ L.pairsLeft, p / 64 = d → (s.pair p).launch ≠ some n →
        (t.pair p).launch = some n ∧ (t.pair p).a.code = (L.image.lantA.map (·.1)).getD [] ∧
        (t.pair p).e.code = (L.image.lantE.map (·.1)).getD [] ∧ (t.pair p).a.pos = 0 ∧ (t.pair p).e.pos = 0 ∧
        (∀ a, lanternBase p ≤ a → a < lanternBase p + 65536 → s.memOk → t.mem.get a = 0)))) ∧
  (∀ (s : State) (p at_ : Nat) (e : Entry) (rest : List Entry) (v : V512), segmentReady s p = true →
    (s.pair p).segment = some at_ → (s.pair p).e.entries ⟨.x, 62⟩ = e :: rest → e.data = some v → e.poison = none →
    (2 ^ 63 ≤ v.toNat % 2 ^ 64 → Gives (.lanternSegmentEnd p) s (fun t => (t.pair p).haltE = true ∧ (t.pair p).segment = none ∧
      (t.pair p).e.entries ⟨.x, 62⟩ = rest ∧ sameBytes s t)) ∧
    (v.toNat % 2 ^ 64 < 2 ^ 24 → v.toNat % 2 ^ 64 < (s.pair p).e.code.length →
      Gives (.lanternSegmentEnd p) s (fun t => (t.pair p).segment = none ∧ (t.pair p).e.pos = v.toNat % 2 ^ 64 ∧
        (t.pair p).e.nextAt = (s.pair p).e.vcc + 1 ∧ (t.pair p).e.entries ⟨.x, 62⟩ = rest ∧ sameBytes s t)) ∧
    (2 ^ 24 ≤ v.toNat % 2 ^ 64 → v.toNat % 2 ^ 64 < 2 ^ 63 →
      Gives (.lanternSegmentEnd p) s (fun t => (t.pair p).faulted = some ⟨true, at_, 24, 0x0505000000#48⟩ ∧ sameBytes s t))) ∧
  (∀ (s : State) (p n : Nat) (L : Launch), (s.pair p).launch = some n → (s.pair p).haltA = true → (s.pair p).haltE = true →
    pairDrained (s.pair p) = true → (s.pair p).faulted = none → look s.launches n = some L →
    Gives (.lanternHalt p) s (fun t => (t.pair p).launch = none ∧ (∃ M, look t.launches n = some M ∧ p ∉ M.pairsLeft) ∧
      sameBytes s t)) ∧
  (∀ (s : State) (p n : Nat) (L : Launch) (f : LFault), (s.pair p).launch = some n → (s.pair p).faulted = some f →
    look s.launches n = some L →
    Gives (.lanternFault p) s (fun t => (t.pair p).faulted = none ∧ (t.pair p).haltA = true ∧ (t.pair p).haltE = true ∧
      (∃ M, look t.launches n = some M ∧ M.pairReports = L.pairReports ++ [(p, f)] ∧
        (∀ x, L.ending = some x → M.ending = some x) ∧
        (L.ending = none → ∀ pos, allPos.find? (fun q => f.mask.getLsbD (posBit q)) = some pos → M.ending = some
          { status := 7, detail := BitVec.ofNat 64 (p / 64 + p % 64 * 2 ^ 8 + (if f.thread then 2 ^ 16 else 0) +
              f.pos % 2 ^ 24 * 2 ^ 24 + f.mask.toNat * 2 ^ 48 + (byteOf f.causes pos).toNat * 2 ^ 56) })) ∧ sameBytes s t))

/-! ## Commands: their start, their end, their records -/

/-- The command of header h stands started and uncompleted. -/
abbrev Started (s : State) (h : CmdHdr) (r : RunCmd) : Prop := s.runOf h.q h.slot = some r ∧ r.hdr = h

/-- The instruction answers the state u with its command completed with a status and a detail. -/
abbrev Completes (i : Instr) (s u : State) (h : CmdHdr) (status : Nat) (detail : W64) : Prop :=
  exec i s = .next (completeCmd h.q h.slot status detail u)

/-- R326: a completed command stands in its queue with its status and detail until its record is written. -/
def Sys2Proof.Claims.CompletionKeepsStatusAndDetail : Prop :=
  ∀ (s : State) (h : CmdHdr) (r : RunCmd) (status : Nat) (detail : W64), Started s h r →
    let t := completeCmd h.q h.slot status detail s
    (∃ x ∈ (t.queue h.q).running, x.hdr = h ∧ x.done = some (status, detail)) ∧ t.runOf h.q h.slot = none ∧
      (∀ q, q ≠ h.q → t.queue q = s.queue q) ∧ (t.queue h.q).rdptr = (s.queue h.q).rdptr ∧ t.mem = s.mem

/-- R314, R315, R328, R399: a post makes the leader read the queue's header; one that keeps the table of R314 is served, another
leaves the queue unserved and is reported; a new leader reads the header again. Before the panel is ready a post does nothing. -/
def Sys2Proof.Claims.PostsAndHandoversReadTheHeader : Prop :=
  (∀ (s : State) (q : Nat), s.fw.stage ≠ 7 → exec (.post q) s = .next s) ∧
  (∀ (s : State) (q l : Nat) (bs : List Byte), s.fw.stage = 7 → leaderOf s q = some l → headerGot s q = .ok bs →
    (∀ h, qhdrOf bs = some h → Gives (.post q) s (fun t => (t.queue q).served = true ∧ (t.queue q).ring = h.ring ∧
      (t.queue q).nslots = h.nslots ∧ (t.queue q).wrptr = h.wr ∧ (t.queue q).rdptr = h.rd ∧ (t.queue q).prio = h.prio ∧
      (t.queue q).port = h.port ∧ (t.queue q).cring = h.cring ∧ (t.queue q).ncslots = h.ncslots ∧
      (t.queue q).thread = h.thread ∧ (t.queue q).leader = some l ∧ (t.queue q).running = (s.queue q).running ∧
      sameBytes s t)) ∧
    (qhdrOf bs = none → Gives (.post q) s (fun t => (t.queue q).served = false ∧
      t.notes = s.notes ++ [{ code := 1, source := 1, index := l, w0 := BitVec.ofNat 64 q, w1 := 0 }] ∧ sameBytes s t))) ∧
  (∀ (s : State) (q : Nat), s.fw.stage = 7 → (s.queue q).leader ≠ leaderOf s q → (s.queue q).served = true →
    (leaderOf s q = none → Gives (.leaderHandover q) s (fun t => (t.queue q).leader = none ∧ sameBytes s t)) ∧
    (∀ l bs h, leaderOf s q = some l → headerGot s q = .ok bs → qhdrOf bs = some h →
      Gives (.leaderHandover q) s (fun t => (t.queue q).leader = some l ∧ (t.queue q).served = true ∧
        (t.queue q).rdptr = h.rd ∧ (t.queue q).wrptr = h.wr ∧ sameBytes s t)))

/-- R316, R317, R329: a head whose start conditions hold starts in the pass: rdptr is committed in memory first, then the command
stands among the running ones and takes its turn; a refused one stands completed with BADCMD and the offset of its first faulty
field; a head that waits 4 ms at a level drops to the next. Stated of one queue. -/
def Sys2Proof.Claims.ArbitrationStartsTheHead : Prop :=
  (∀ (s s' : State) (q : Nat) (k : CmdQueue) (r : CmdRead), s.fw.stage = 7 → s.queues = [(q, k)] → q < 64 →
    k.posted = false → k.served = true → k.rdptr ≠ k.wrptr → k.rdptr < 2 ^ 32 → k.prio < 4 →
    (s.now - k.headSince) / 3200000 ≤ k.promoted → headOf s q = .head r → launchCmd r.instr = none →
    (startOk k r = false → Gives .arbitration s (fun t => t.queue q = k ∧ t.agenda = s.agenda ∧ sameBytes s t)) ∧
    (startOk k r = true →
      firmWrite s q k.rdptr (hdrVa s q + 16) (toBytes ((k.rdptr + 1) % 2 ^ 32) 4) = .ok s' →
      Gives .arbitration s (fun t => (t.queue q).rdptr = (k.rdptr + 1) % 2 ^ 32 ∧
        (∃ x : RunCmd, (t.queue q).running = (s'.queue q).running ++ [x] ∧ x.hdr = r.hdr ∧ x.instr = r.instr ∧
          x.begun = false ∧ x.done = (badOffset s r).map (fun o => (1, BitVec.ofNat 64 o)) ∧ x.lead = k.leader.getD 0) ∧
        t.agenda = s'.agenda ++ (if r.bad.isSome then [] else [.event r.instr]) ∧
        lookD t.fw.rr (k.prio - k.promoted) 0 = (q + 1) % 64 ∧ sameBytes s' t))) ∧
  (∀ (s : State) (q : Nat), (s.queue q).served = true → (s.queue q).rdptr ≠ (s.queue q).wrptr →
    Gives (.commandQueuePromotion q) s (fun t =>
      t.queue q = { s.queue q with promoted := max (s.queue q).promoted ((s.now - (s.queue q).headSince) / 3200000) } ∧
      (∀ p, p ≠ q → t.queue p = s.queue p) ∧ sameBytes s t))

/-- R326, R327, R400: a completed command leaves its queue, with a record of 32 bytes in the completion ring where it asks for one,
fails, or is a COMPLETE; where its record must wait at its home, it stays. A window covers the records after an interrupt, and its end
posts one message; the oldest message leaves. -/
def Sys2Proof.Claims.RecordsAndTheirInterrupts : Prop :=
  (∀ (s s' : State) (q sl : Nat) (r : RunCmd) (st : Nat) (dt : W64),
    (s.queue q).running.find? (fun r => r.hdr.slot == sl && r.done.isSome) = some r → r.done = some (st, dt) →
    let k := s.queue q
    let gone := fun l : List RunCmd => l.filter (fun x => x != r)
    let left := fun u : State => u.modQueue q (fun k => { k with running := gone k.running })
    let again := fun u : State => if (u.queue q).served then readHeader true q u else u
    let put := homeWrite s whoFirm (.command q r.hdr.slot) (k.cring + 32 * (k.records % k.ncslots))
      (toBytes r.hdr.utag.toNat 4 ++ toBytes q 1 ++ toBytes r.hdr.op.toNat 1 ++ toBytes st 1 ++ toBytes 0 1 ++
        toBytes dt.toNat 8 ++ toBytes (s.now - s.timeBase) 8 ++ toBytes r.hdr.slot 8) false
    (r.hdr.wantRec = false → r.hdr.op ≠ 12 → st = 0 → exec (.completionRecord q sl) s = .next (again (left s))) ∧
    (r.hdr.wantRec = true ∨ r.hdr.op = 12 ∨ st ≠ 0 →
      (put = .wait s' → exec (.completionRecord q sl) s = .next s' ∧ r ∈ (s'.queue q).running) ∧
      (put = .ok s' →
        let irq := ((s'.queue q).port, BitVec.ofNat 64 ((s'.queue q).thread.toNat + q % 64 * 2 ^ 33))
        ∃ u, exec (.completionRecord q sl) s = .next (again u) ∧ (u.queue q).records = (s'.queue q).records + 1 ∧
          (u.queue q).running = gone (s'.queue q).running ∧
          (s'.fw.window = 0 → (s'.queue q).window = none → u.irqs = s'.irqs ++ [irq]) ∧
          (s'.fw.window ≠ 0 → (s'.queue q).window = none → u.irqs = s'.irqs ∧
            (u.queue q).window = some (s'.now + 800 * s'.fw.window)) ∧
          (∀ n, s'.fw.window ≠ 0 → (s'.queue q).window = some n →
            (s'.now < n → u.irqs = s'.irqs ∧ (u.queue q).window = some n) ∧
            (n ≤ s'.now → u.irqs = s'.irqs ++ [irq] ∧ (u.queue q).window = some (s'.now + 800 * s'.fw.window))) ∧
          sameBytes s' u))) ∧
  (∀ (s : State) (q n : Nat), (s.queue q).window = some n → n ≤ s.now → Gives (.coalescingWindowEnd q) s (fun t =>
    (t.queue q).window = none ∧
    t.irqs = s.irqs ++ [((s.queue q).port, BitVec.ofNat 64 ((s.queue q).thread.toNat + q % 64 * 2 ^ 33))] ∧ sameBytes s t)) ∧
  (∀ (s : State) (x : Nat × W64) (rest : List (Nat × W64)), s.irqs = x :: rest →
    exec .interruptMessage s = .next { s with irqs := rest })

/-! ## Launches -/

/-- R318: a LAUNCH that fails a check completes with the status and detail of the first check it fails; an empty nest completes at
once; else every core of the grid that has iterations is loaded with its context: logical index, entry point, slice, spill area,
and the deterministic bit. -/
def Sys2Proof.Claims.LaunchChecksAndDispatches : Prop :=
  ∀ (s : State) (h : CmdHdr) (f : LaunchCmd) (r : RunCmd), Started s h r → r.begun = false → s.fw.patchHeld = none →
    (∀ t, loadImage s f.image = .bad t → Completes (.launch h f) s (imageNoted s f.image) h 4 (BitVec.ofNat 64 t)) ∧
    (∀ img, loadImage s f.image = .ok img → f.det = false → f.resume = false →
      (img.lantA.isNone ∧ img.lantE.isNone ∨ f.ndome ≠ 0) →
      (gridOf s f = none → Completes (.launch h f) s s h 2 0) ∧
      (gridOf s f ≠ none → ¬ (img.perm.length = img.nestD ∧ (∀ j ∈ img.perm, j < img.nestD) ∧ img.perm.Nodup) →
        Completes (.launch h f) s s h 3 0) ∧
      (gridOf s f ≠ none → permOk img = true →
        (∀ va, readExtents s img (List.range img.nestD) = .bad va →
          Completes (.launch h f) s (readNoted s va 4) h 5 (BitVec.ofNat 64 va)) ∧
        (∀ es, readExtents s img (List.range img.nestD) = .ok es → 2 ^ 48 - 1 < product es →
          Completes (.launch h f) s s h 3 0))) ∧
    (∀ st d, checkLaunch s f = .bad st d → Completes (.launch h f) s (refusalNoted s f st d) h st (BitVec.ofNat 64 d)) ∧
    (∀ d, checkLaunch s f = .ok d → product d.ext = 0 → Completes (.launch h f) s s h 0 0) ∧
    (∀ d, checkLaunch s f = .ok d → product d.ext ≠ 0 → gridBusy s d.grid = false → d.grid.Nodup →
      d.grid.length = f.gx * f.gy →
      let N := product d.ext
      let P := f.gx * f.gy
      Gives (.launch h f) s (fun t =>
        (∃ L, look t.launches s.nextId = some L ∧ L.hdr = h ∧ L.cores = d.grid ∧ L.image = d.img ∧ L.released = false ∧
          L.ending = none ∧ L.detMode = f.det) ∧
        (∀ c p, c < P → d.grid[c]? = some p →
          (c < N → (t.core p).mode = .loaded ∧ (t.core p).launch = some s.nextId ∧ (t.core p).logIdx = c ∧
            (t.core p).gridX = c % f.gx ∧ (t.core p).gridY = c / f.gx ∧ (t.core p).detMode = f.det ∧
            (t.core p).seq.pos = d.img.entry ∧ (t.core p).seq.vcc = 0 ∧ (t.core p).uivec = 0xFFFFFF#24 ∧ (t.core p).uistat = 0 ∧
            (t.core p).pwrLim = min 7872 (max 3936 ((s.fw.power - 7000) * 7872 / 27000)) ∧
            (t.core p).spillBase = 524288 - d.img.spill ∧ (t.core p).spillOvf = f.spillovf + c * 2 ^ 24 ∧
            (t.core p).seq.code = (if (s.core p).tagImage = some d.img.id then (s.core p).seq.code else d.img.code) ∧
            ((t.core p).seq.entries ⟨.x, 0⟩).map (·.data) = [some (((BitVec.ofNat 64 (c * (N / P) + min c (N % P))).setWidth 512))] ∧
            ((t.core p).seq.entries ⟨.x, 1⟩).map (·.data) = [some (((BitVec.ofNat 64 (N / P + (if c < N % P then 1 else 0))).setWidth 512))]) ∧
          (N ≤ c → t.core p = s.core p)) ∧ sameBytes s t))

/-- R391, R389: a LAUNCH with resume = 1 takes its cores back from the images in its context area, with a restart mark forced at each
one's first bundle, and their memories with them; a core that holds the image's code and dictionary loads neither; a context that is
not kept is GRIDRANGE. -/
def Sys2Proof.Claims.ResumeRestoresTheCores : Prop :=
  ∀ (s : State) (h : CmdHdr) (f : LaunchCmd) (r : RunCmd), Started s h r → r.begun = false → s.fw.patchHeld = none →
    hashWaits s f.ctx = false →
    (∀ st d, checkLaunch s f = .bad st d →
      Completes (.launchResume h f) s (refusalNoted s f st d) h st (BitVec.ofNat 64 d)) ∧
    (∀ d, checkLaunch s f = .ok d → look s.contexts f.ctx = none → Completes (.launchResume h f) s s h 2 0) ∧
    (∀ d x a, checkLaunch s f = .ok d → look s.contexts f.ctx = some x → gridBusy s d.grid = false →
      x.launch.image.id = d.img.id → x.launch.detMode = f.det → readArea s f.ctx x = .ok a →
      (x.cores.map (·.1)).Nodup → s.memOk →
      a.mems.Pairwise (fun p q => p.1 + p.2.length ≤ q.1 ∨ q.1 + q.2.length ≤ p.1) →
      Gives (.launchResume h f) s (fun t =>
        (∃ L, look t.launches x.num = some L ∧ L.hdr = h ∧ L.active = x.launch.active ∧ L.bells = x.launch.bells ∧
          L.released = false ∧ L.ending = none ∧ L.pfAsk = []) ∧
        (∀ y ∈ x.cores,
          let im := lookD a.regs y.1 []
          let v := if x.launch.detMode then x.vcc else y.2.seq.vcc
          let k := t.core y.1
          k.mode = y.2.mode ∧ k.launch = some x.num ∧ k.seq.pos = wordAt im 0 % 2 ^ 24 ∧ k.seq.vcc = v ∧
          k.seq.queues = readQueues y.2 v im (lookD a.vecs y.1 []) ∧ k.seq.rstack = readStack im ∧
          (∀ n, n < 15 → k.seq.preds[n]? = some (n + 1, BitVec.ofNat 64 (wordAt im (0x108 + 8 * n)))) ∧
          (∀ n, n < 6 → k.loops[n]? = some (n, BitVec.ofNat 32 (wordAt im (0x180 + 8 * n)))) ∧
          (∀ n, n < 8 → k.kregs[n]? = some (n, BitVec.ofNat 64 (wordAt im (0x1B00 + 8 * n)))) ∧
          k.uivec = BitVec.ofNat 24 (wordAt im 0x80) ∧ k.faultMask = BitVec.ofNat 6 (wordAt im 0x90) ∧
          k.cause = BitVec.ofNat 48 (wordAt im 0x98) ∧ k.epc = BitVec.ofNat 24 (wordAt im 0xA0) ∧
          k.uistat.toNat < 32 ∧ k.spillBase = wordAt im 0xC0 % 2 ^ 19 ∧ k.spillOvf = wordAt im 0xC8 % 2 ^ 56 ∧
          k.frec = FRec.none ∧ k.window = [] ∧ k.stopReq = false ∧ k.snap = none ∧ k.markNext = true ∧
          (if (s.core y.1).tagImage = some d.img.id then
            k.seq.code = (s.core y.1).seq.code ∧ k.seq.dict = (s.core y.1).seq.dict ∧ k.badDict = (s.core y.1).badDict
           else k.seq.code = d.img.code ∧ k.seq.dict = d.img.dict ∧ k.badDict = [])) ∧
        (∀ b ∈ a.mems, t.mem.read b.1 b.2.length = b.2) ∧
        (∀ n, (∀ b ∈ a.mems, n < b.1 ∨ b.1 + b.2.length ≤ n) → t.mem.get n = s.mem.get n)))

/-- R349, R24, R25, R176, R26: the members of a dispatch are released together once all are loaded; an ended core whose queues are
empty is freed, its scratchpads cleared; a launch whose cores are all free and whose pairs have halted completes with OK or with
the status of its first report. -/
def Sys2Proof.Claims.LaunchesAreReleasedFreedAndCompleted : Prop :=
  (∀ (s : State) (n : Nat) (L : Launch), look s.launches n = some L → L.released = false →
    (∀ e, L.ending = some e → e.status = 7) →
    (∀ c ∈ L.active, (s.core c).mode = .loaded ∨ ((s.core c).mode = .stop true ∧ (s.core c).waits = [])) →
    (L.detMode = true → ∀ p ∈ L.pairs, (s.pair p).launch = some n) →
    Gives (.dispatchRelease n) s (fun t => (∃ M, look t.launches n = some M ∧ M.released = true ∧ M.active = L.active) ∧
      (∀ c ∈ L.active, (t.core c).mode = .run) ∧ (∀ p ∈ L.pairs, (t.pair p).loaded = true) ∧
      (∀ c, c ∉ L.active → t.core c = s.core c) ∧ sameBytes s t)) ∧
  (∀ (s : State) (c : Nat), coreEmpty s c = true → s.memOk →
    Gives (.coreFree c) s (fun t => (t.core c).mode = .free ∧ (t.core c).launch = none ∧ (t.core c).seq.queues = [] ∧
      (t.core c).faultMask = (s.core c).faultMask ∧ (t.core c).cause = (s.core c).cause ∧ (t.core c).epc = (s.core c).epc ∧
      (t.core c).frec = (s.core c).frec ∧ (t.core c).frzCnt = (s.core c).frzCnt ∧ (t.core c).lateFrz = (s.core c).lateFrz ∧ (t.core c).qUnder = (s.core c).qUnder ∧
      (∀ a, localBase c 0 ≤ a → a < localBase c 0 + 2 ^ 22 → t.mem.get a = 0) ∧ sameOutside s t (localBase c 0) (2 ^ 22) ∧
      (∀ n L, (s.core c).launch = some n → look s.launches n = some L →
        ∃ M, look t.launches n = some M ∧ M.active = L.active.filter (· != c) ∧
          M.pfAsk = L.pfAsk ++ (if L.detMode then (s.core c).pfAt else [])) ∧ (∀ d, d ≠ c → t.core d = s.core d))) ∧
  (∀ (s : State) (n : Nat) (L : Launch) (r : RunCmd), look s.launches n = some L → L.active = [] → L.pairsLeft = [] →
    (L.saved = [] ∨ L.ending ≠ none) → L.preempt = none → Started s L.hdr r →
    Gives (.launchComplete n) s (fun t => look t.launches n = none ∧
      (∃ x ∈ (t.queue L.hdr.q).running, x.hdr = L.hdr ∧
        x.done = some (match L.ending with | some e => (e.status, e.detail) | none => (0, 0))) ∧ sameBytes s t))

/-- R325, R387, R388, R390: PREEMPT asks every core of its launch to stop, or completes with NOTARGET; a spire whose cores have
stopped is saved: its images stand in the context area, its cores are free, and the last spire completes the launch with PREEMPTED (8)
and the PREEMPT with OK. -/
def Sys2Proof.Claims.PreemptStopsAndSavesALaunch : Prop :=
  (∀ (s : State) (h : CmdHdr) (f : PreemptCmd) (r : RunCmd), Started s h r → r.begun = false →
    (s.launches.find? (fun x => x.2.hdr.q == f.queue && x.2.hdr.slot == f.slot) = none → Completes (.preempt h f) s s h 12 0) ∧
    (∀ n L, s.launches.find? (fun x => x.2.hdr.q == f.queue && x.2.hdr.slot == f.slot) = some (n, L) → L.preempt = none →
      (L.cmd.ctx = 0 ∨ L.pairsLeft ≠ [] → Completes (.preempt h f) s s h 12 0) ∧
      (∀ va, L.cmd.ctx ≠ 0 → L.pairsLeft = [] →
        vaPieces s true true 65536 L.cmd.ctx (areaSize L.cores.length (clustersOf L.cores).length) = .bad va →
        Completes (.preempt h f) s s h 12 0) ∧
      (∀ ps, L.cmd.ctx ≠ 0 → L.pairsLeft = [] → look s.launches n = some L →
        vaPieces s true true 65536 L.cmd.ctx (areaSize L.cores.length (clustersOf L.cores).length) = .ok ps →
        Gives (.preempt h f) s (fun t => (∃ M, look t.launches n = some M ∧ M.preempt = some (h.q, h.slot)) ∧
          (∀ c, (s.core c).launch = some n → (s.core c).mode ≠ .free → (t.core c).stopReq = true ∧
            (L.detMode = false → (t.core c).stopAt = 0)) ∧
          (∀ c, (s.core c).launch ≠ some n → t.core c = s.core c) ∧ sameBytes s t)))) ∧
  (∀ (s s' : State) (n sp : Nat) (L : Launch), look s.launches n = some L → saveReady s L sp = true → s'.memOk →
    let ctx := L.cmd.ctx
    let cores := spireCores L sp
    let hd := headerImage L (stopVcc s L (look s.contexts ctx) cores) s
    let im := coreImages ctx cores hd.2
    let clms := ((clmImages ctx L).filter (fun x => x.1 / 8 == sp)).map (fun x => (x.2, s.mem.read (clmBase x.1) (2 ^ 22)))
    let ps := (ctx, hd.1) :: im.1 ++ clms
    let all := (spiresOf L).all (fun x => x == sp || L.saved.contains x)
    writeAll s L.hdr.q L.hdr.slot ps im.2 = .ok s' →
    (ps.flatMap (fun x => (List.range x.2.length).map (fun i => (s.translate (x.1 + i)).map (·.1)))).Nodup →
    Gives (.contextSave n sp) s (fun t =>
      (∀ c ∈ cores, (t.core c).mode = .free ∧ ∀ a, localBase c 0 ≤ a → a < localBase c 0 + 2 ^ 22 → t.mem.get a = 0) ∧
      (∃ x, look t.contexts ctx = some x ∧ ∀ c ∈ cores, (c, s.core c) ∈ x.cores) ∧
      (∀ x ∈ ps, ∀ i, i < x.2.length → ∀ pa lf, s.translate (x.1 + i) = some (pa, lf) → pa < 2 ^ 60 →
        t.mem.get pa = x.2.getD i 0) ∧
      (look s'.launches n = some L → all = true → look t.launches n = none ∧
        (∀ r, Started s' L.hdr r → ∃ x ∈ (t.queue L.hdr.q).running, x.hdr = L.hdr ∧ x.done = some (8, 0)) ∧
        (∀ pq psl r, L.preempt = some (pq, psl) → (pq, psl) ≠ (L.hdr.q, L.hdr.slot) → s'.runOf pq psl = some r →
          ∃ x ∈ (t.queue pq).running, x.hdr = r.hdr ∧ x.done = some (0, 0))) ∧
      (look s'.launches n = some L → all = false →
        ∃ M, look t.launches n = some M ∧ M.saved = L.saved ++ [sp] ∧ M.active = L.active.filter (fun c => !cores.contains c))))

/-! ## The other commands -/

/-- R319, R320: a TOP issues its T-op, or completes with the page or the field that refuses it; a COPY translates both ranges, then
moves a chunk of up to 16 KiB, ending with a block of its destination, in each further step, and completes with the last or with the
first error. -/
def Sys2Proof.Claims.TopAndCopyCommandsRun : Prop :=
  (∀ (s : State) (h : CmdHdr) (f : TopCmd) (r : RunCmd), Started s h r → r.begun = false →
    let vas := [f.dd, f.ds1] ++ (if topTwo f.opc then [f.ds2] else [])
    (∀ va, readDescs s vas = .bad va → Completes (.top h f) s (readNoted s va 64) h 5 (BitVec.ofNat 64 va)) ∧
    (∀ vs, readDescs s vas = .ok vs →
      (∀ o, topRefusal s f (vs.map descOf) = some o → Completes (.top h f) s s h 1 (BitVec.ofNat 64 o)) ∧
      (topRefusal s f (vs.map descOf) = none → Gives (.top h f) s (fun t =>
        (∃ v, look t.tops s.nextId = some v ∧ v.op = f.opc ∧ v.aux = f.aux ∧ v.from_ = .command h.q h.slot ∧
          v.stage = .issued ∧ some v.dd = (vs.map descOf).getD 0 none ∧ some v.ds1 = (vs.map descOf).getD 1 none ∧
          v.tag = BitVec.ofNat 16 s.fw.fwTag ∧ v.spire = r.lead ∧ v.vcc = r.start) ∧
        t.fw.fwTag = (s.fw.fwTag + 1) % 2 ^ 16 ∧ (∃ x, Started t h x ∧ x.begun = true) ∧ sameBytes s t)))) ∧
  (∀ (s : State) (h : CmdHdr) (f : CopyCmd) (r : RunCmd), Started s h r →
    (r.begun = false →
      (∀ va, vaPieces s true false 65536 f.src f.len = .bad va → Completes (.copy h f) s s h 1 8) ∧
      (∀ va, (∀ v, vaPieces s true false 65536 f.src f.len ≠ .bad v) → vaPieces s false true 65536 f.dst f.len = .bad va →
        Completes (.copy h f) s s h 1 16) ∧
      (∀ a b, vaPieces s true false 65536 f.src f.len = .ok a → vaPieces s false true 65536 f.dst f.len = .ok b →
        Gives (.copy h f) s (fun t => (∃ x, Started t h x ∧ x.begun = true ∧ x.prog = r.prog) ∧ sameBytes s t))) ∧
    (r.begun = true →
      let n := min (16384 - (f.dst + r.prog) % 256) (f.len - r.prog)
      let who : Who := { kind := 2, idx := r.lead, spire := some r.lead, own := some (.command h.q h.slot) }
      let src := copyPieces (srcPages r.pages) (f.src + r.prog) n
      (∀ x ∈ src, s.mustWait who x.1 x.2 = false) →
      (copyStatus s src ≠ 0 →
        ∃ u, Completes (.copy h f) s u h 13 (BitVec.ofNat 64 (copyStatus s src * 2 ^ 32)) ∧ sameBytes s u) ∧
      (∀ s', copyStatus s src = 0 →
        writePieces s who (.command h.q h.slot)
          (tilePieces (dealBytes (copyPieces (dstPages r.pages) (f.dst + r.prog) n)
            (src.flatMap (fun x => s.mem.read x.1 x.2)))) s = .ok s' →
        (f.len ≤ r.prog + n → ∃ u, Completes (.copy h f) s u h 0 0 ∧ sameBytes s' u) ∧
        (r.prog + n < f.len → ∃ u, exec (.copy h f) s =
          .next (u.modRun h.q h.slot (fun r => { r with prog := r.prog + n })) ∧ sameBytes s' u))))

/-- R321: WAITEV completes where its counter is at or above its value, else it is watched at the counter's home; SIGNAL adds to its
counter or stores in it once every earlier command has completed; a counter that cannot be reached is BADCMD at offset 8. -/
def Sys2Proof.Claims.EventCountersOrderQueues : Prop :=
  (∀ (s : State) (h : CmdHdr) (f : WaitevCmd) (r : RunCmd), Started s h r → r.begun = false →
    (∀ va, counterAt s false f.counter = .bad va → Completes (.waitev h f) s s h 1 8) ∧
    (∀ pa, counterAt s false f.counter = .ok [(pa, 8)] → pa % 8 = 0 → s.mustWait whoFirm pa 8 = false →
      (s.badRead pa 8 = false → f.value.toNat ≤ s.mem.num pa 8 → ∃ u, Completes (.waitev h f) s u h 0 0 ∧ sameBytes s u) ∧
      (s.badRead pa 8 = true ∨ s.mem.num pa 8 < f.value.toNat → Gives (.waitev h f) s (fun t =>
        (∃ w ∈ t.watchesAt pa, w.acc.src = .command h.q h.slot ∧ w.acc.pa = pa ∧ w.acc.size = 8) ∧
        (∃ x, Started t h x ∧ x.begun = true) ∧ sameBytes s t)))) ∧
  (∀ (s : State) (h : CmdHdr) (f : SignalCmd) (r : RunCmd), Started s h r →
    (r.begun = false →
      (∀ va, counterAt s true f.counter = .bad va → Completes (.signal h f) s s h 1 8) ∧
      (∀ pa, counterAt s true f.counter = .ok [(pa, 8)] → earlierOpen s h.q h.slot = true →
        Gives (.signal h f) s (fun t => (∃ x, Started t h x ∧ x.begun = true) ∧ sameBytes s t))) ∧
    (∀ pa bs s₁ s₂, r.begun = true → r.pages = [(0, pa)] → earlierOpen s h.q h.slot = false →
      homeRead s { whoFirm with kind := 5, own := some (.command h.q h.slot) } pa 8 = .ok bs false s₁ →
      homeWrite s { whoFirm with kind := 5 } (.command h.q h.slot) pa
        (toBytes (if f.store then f.value.toNat else (ofBytes bs + f.value.toNat) % 2 ^ 64) 8) false = .ok s₂ →
      ofBytes bs < 2 ^ 64 → Completes (.signal h f) s s₂ h 0 0))

/-- R324, R325: SETMODE sets the pool of each spire that no launch holds, the coalescing window, or the power limit; FENCE and
COMPLETE complete once every earlier command of their queue has. -/
def Sys2Proof.Claims.ModesAndFencesComplete : Prop :=
  (∀ (s : State) (h : CmdHdr) (f : SetmodeCmd) (r : RunCmd), Started s h r →
    (let sps := if f.spire = 255 then List.range 128 else [f.spire]
     ((∀ sp ∈ sps, ∀ c ∈ heldCores s, c / 64 ≠ sp) → r.prog = 0 →
      Gives (.setmodeRisePool h f) s (fun t => (∀ sp ∈ sps, look t.fw.pools sp = some f.value) ∧
        (∃ x ∈ (t.queue h.q).running, x.hdr = h ∧ x.done = some (0, 0)) ∧ sameBytes s t)) ∧
     Gives (.setmodeRisePool h f) s (fun t => ∀ sp, (∃ c ∈ heldCores s, c / 64 = sp) → look t.fw.pools sp = look s.fw.pools sp)) ∧
    Completes (.setmodeCoalesce h f) s { s with fw := { s.fw with window := f.value } } h 0 0 ∧
    Completes (.setmodePowerLimit h f) s { s with fw := { s.fw with power := f.value } } h 0 0) ∧
  (∀ (s : State) (h : CmdHdr) (r : RunCmd), Started s h r →
    (earlierOpen s h.q h.slot = false → Completes (.fenceCommand h) s s h 0 0 ∧ Completes (.complete h) s s h 0 0) ∧
    (earlierOpen s h.q h.slot = true → exec (.fenceCommand h) s = .next s ∧ exec (.complete h) s = .next s))

/-- The addresses of the four entries that a walk of a virtual page reads. -/
abbrev entryKeys (s : State) (va : Nat) : List Nat :=
  let e0 := s.pte 0 0 va
  let e1 := s.pte (pteAddr e0) 1 va
  let e2 := s.pte (pteAddr e1) 2 va
  [8 * pteIdx 0 va, pteAddr e0 + 8 * pteIdx 1 va, pteAddr e1 + 8 * pteIdx 2 va, pteAddr e2 + 8 * pteIdx 3 va]

/-- An entry that points at the next table. -/
abbrev Points (w : W64) : Prop := pteValid w = true ∧ pteClean w = true ∧ pteLeaf w = false

/-- R322, R332, R333, R340, R341: MAP writes leaves that the walk then finds, and refuses a page that no leaf may map; UNMAP
clears a leaf once its recall is over and nothing holds the page again; MIGRATE recalls a page likewise and moves its bytes and
its poison. Stated of the command's last page, small pages for MAP. -/
def Sys2Proof.Claims.PagesAreMappedUnmappedAndMoved : Prop :=
  (∀ (s : State) (h : CmdHdr) (f : PagesCmd) (r : RunCmd), Started s h r → r.begun = false → r.prog = 0 →
    (mapOk s f.target f.large = false → Completes (.mapPages h f) s s h 1 32) ∧
    (∀ i, mapOk s f.target f.large = true → i < f.count → mapOk s (f.target + i * pageSize f.large) f.large = false →
      Completes (.mapPages h f) s s h 1 16) ∧
    (mapRefusal s f = none → f.count = 1 → f.large = false → oldLeaves s f.va false = [] → f.target < 2 ^ 52 →
      (∀ lvl table, (lvl, table) ∈ [(0, 0), (1, pteAddr (s.pte 0 0 f.va)),
          (2, pteAddr (s.pte (pteAddr (s.pte 0 0 f.va)) 1 f.va))] → Points (s.pte table lvl f.va)) →
      pteAddr (s.pte 0 0 f.va) % 16384 = 0 → (entryKeys s f.va).Nodup →
      Gives (.mapPages h f) s (fun t =>
        t.walk f.va = some { pa := f.target, large := false, read := f.read, write := f.write, moving := false } ∧
        (∃ x ∈ (t.queue h.q).running, x.hdr = h ∧ x.done = some (0, 0)) ∧ sameBytes s t))) ∧
  (∀ (s : State) (h : CmdHdr) (f : PagesCmd) (r : RunCmd), Started s h r → r.prog + 1 = f.count →
    let va := f.va + r.prog * pageSize f.large
    (leafAt s va f.large = none → Completes (.unmap h f) s s h 0 0 ∧ Completes (.migrate h f) s s h 0 0) ∧
    (∀ l, leafAt s va f.large = some l →
      (r.sentRec = false → Gives (.unmap h f) s (fun t => (∃ x ∈ t.recalls, x.page = l.pa) ∧ sameBytes s t) ∧
        Gives (.migrate h f) s (fun t => (∃ x ∈ t.recalls, x.page = l.pa) ∧ sameBytes s t)) ∧
      (r.sentRec = true → recallsOver s [l] = true → holdersOf s l.pa l.large ≠ [] →
        Gives (.unmap h f) s (fun t => (∃ x ∈ t.recalls, x.page = l.pa) ∧ leafAt t va f.large = some l ∧ sameBytes s t) ∧
        Gives (.migrate h f) s (fun t => (∃ x ∈ t.recalls, x.page = l.pa) ∧ leafAt t va f.large = some l ∧ sameBytes s t)) ∧
      (r.sentRec = true → recallsOver s [l] = false → exec (.unmap h f) s = .next s ∧ exec (.migrate h f) s = .next s) ∧
      (r.sentRec = true → recallsOver s [l] = true → holdersOf s l.pa l.large = [] →
        Gives (.unmap h f) s (fun t => t.walk va = none ∧
          (∃ x ∈ (t.queue h.q).running, x.hdr = h ∧ x.done = some (0, 0)) ∧ sameBytes s t) ∧
        (∀ s', let u := { s with free := s.free + 1 }
          let toPa := newPage u f.target l.large (Config.freeBits s.free)
          (∀ b ∈ pageBlocks l, s.donatedAt b = false ∧ s.mustWait whoFirm b 256 = false) → pageFree u toPa l.large = true → toPa % 2 ^ 37 + pageSize l.large ≤ u.capOf f.target →
          writePieces u whoFirm (.command h.q h.slot) (cutBlocks toPa (s.mem.read l.pa (pageSize l.large))) u = .ok s' →
          ∃ v, Completes (.migrate h f) s v h 0 0 ∧ (∀ a, v.mem.get a = s'.mem.get a) ∧
            v.poison = s'.poison ++ (s'.poison.filter (fun b => l.pa ≤ b && b < l.pa + pageSize l.large)).map
              (fun b => b - l.pa + toPa)))))

/-- R202, R203, R323: BALLOON gives pages to a dome's list and takes them back zeroed; a dome whose pool is short of a
waiting write recalls the leases on the first page of its list, then takes the page, whose bytes read zero from then on. -/
def Sys2Proof.Claims.BalloonPagesComeAndGo : Prop :=
  (∀ (s : State) (h : CmdHdr) (f : BalloonCmd) (r : RunCmd), Started s h r →
    (s.capOf f.dome ≤ f.page ∨ s.capOf f.dome < f.page + f.count * 65536 → Completes (.balloonDonate h f) s s h 1 16) ∧
    (f.page < s.capOf f.dome → f.page + f.count * 65536 ≤ s.capOf f.dome → Gives (.balloonDonate h f) s (fun t =>
      (∀ i, i < f.count → f.page / 65536 + i ∈ (t.dome f.dome).balloon ∨
        ((s.dome f.dome).block ((f.page / 65536 + i) * 256)).ballooned = true) ∧
      (∀ g ∈ (s.dome f.dome).balloon, g ∈ (t.dome f.dome).balloon) ∧
      (∃ x ∈ (t.queue h.q).running, x.hdr = h ∧ x.done = some (0, 0)) ∧ sameBytes s t)) ∧
    ((∃ i, i < f.count ∧ f.page / 65536 + i ∉ (s.dome f.dome).balloon) → Completes (.balloonReclaim h f) s s h 1 16) ∧
    (∀ n u, (∀ i, i < f.count → f.page / 65536 + i ∈ (s.dome f.dome).balloon) →
      reclaimPages f.dome (balloonPages f) 0 s = (n, u) →
      (n = f.count → Completes (.balloonReclaim h f) s (poolCheck u f.dome) h 0 0) ∧
      (n ≠ f.count → Completes (.balloonReclaim h f) s (poolCheck u f.dome) h 11 (BitVec.ofNat 64 n)) ∧
      (n = f.count → s.memOk → ∀ a, f.dome * 2 ^ 37 + f.page / 65536 * 65536 ≤ a →
        a < f.dome * 2 ^ 37 + (f.page / 65536 + f.count) * 65536 → u.mem.get a = 0))) ∧
  (∀ (s : State) (d g : Nat) (rest : List Nat) (w : HeldWrite) (ws : List HeldWrite), (s.dome d).balloon = g :: rest →
    (s.dome d).waiting = w :: ws → (s.dome d).poolFree < w.need → s.memOk →
    (takeable s d g = true → Gives (.balloonTake d) s (fun t =>
      (t.dome d).balloon = rest ∧ (t.dome d).bTakes = (s.dome d).bTakes + 1 ∧
      (∀ a, d * 2 ^ 37 + g * 65536 ≤ a → a < d * 2 ^ 37 + g * 65536 + 65536 → t.mem.get a = 0) ∧
      sameOutside s t (d * 2 ^ 37 + g * 65536) 65536)) ∧
    (∀ l ∈ (s.dome d).leases, inPage l.page l.large (d * 2 ^ 37 + g * 65536) = true → Gives (.balloonTake d) s (fun t =>
      (∃ x ∈ t.recalls, x.page = l.page) ∧ (t.dome d).balloon = g :: rest ∧ sameBytes s t))) ∧
  (∀ (s : State) (d b : Nat), 32 ≤ lookD (s.dome d).acts b 0 → Gives (.refreshManagement d b) s (fun t =>
    lookD (t.dome d).acts b 0 + 32 = lookD (s.dome d).acts b 0 ∧ (t.dome d).rfms = (s.dome d).rfms + 1 ∧
    (∀ x ∈ (t.dome d).blocked, x.1 ≠ b) ∧ sameBytes s t))

/-! ## The host, the device registers, the notification queue -/

/-- The dome registers of R211: offset and value. -/
def domeRegs : List (Nat × (Dome → Nat)) :=
  [(0x00, fun _ => 1907), (0x08, fun k => k.lcap), (0x10, fun k => k.poolFree), (0x18, fun k => k.poolLow),
   (0x20, fun k => k.balloon.length), (0x28, fun k => k.held.length),
   (0x30, fun k => (if k.formatted then 1 else 0) + (if k.pendLow then 2 else 0) + (if k.pendExh.isSome then 4 else 0)),
   (0x38, fun k => k.sectors), (0x40, fun k => k.expands), (0x48, fun k => k.shrinks), (0x50, fun k => k.rawWr),
   (0x58, fun k => k.zeroWr), (0x60, fun k => k.bTakes), (0x68, fun k => k.exhausts), (0x70, fun k => k.abandons),
   (0x78, fun k => k.balloonHit), (0x80, fun k => k.rfms), (0x88, fun k => k.alerts), (0x90, fun k => k.noteDly)]

/-- The counters of a core (R346): index and value. -/
def countRegs : List (Nat × (Core → Nat)) :=
  [(0, fun k => k.seq.vcc), (1, fun k => k.lateFrz), (2, fun k => k.frzCnt), (3, fun k => k.qUnder), (4, fun k => k.ceCnt),
   (5, fun k => k.ueCnt), (6, fun k => k.ftoCnt)]

/-- The state with one more answer to the host. -/
abbrev answered (s : State) (pa : Nat) (r : Option (List Byte)) : State := { s with hostReads := s.hostReads ++ [(pa, r)] }

/-- A write of n bytes at pa leaves the rdptr of the notification queue alone. -/
abbrev offRdptr (s : State) (pa n : Nat) : Prop := ∀ q, s.noteHdr = some q → pa + n ≤ q.pa + 16 ∨ q.pa + 20 ≤ pa

/-- R4, R211, R346, R398, R399: a host read of a register returns its value, one of memory the bytes of its home, one of a post
address or another class an error. -/
def Sys2Proof.Claims.HostReadsRegistersAndMemory : Prop :=
  (∀ (s : State) (d : Nat), d < 128 → ∀ x ∈ domeRegs,
    let pa := 0x9000000000000 + d * 2 ^ 16 + x.1
    exec (.hostWindowRead pa 8) s = .next (answered s pa (some (toBytes (x.2 (s.dome d) % 2 ^ 64) 8)))) ∧
  (∀ (s : State) (c : Nat), c < 8192 → ∀ x ∈ countRegs,
    let pa := 0xA000000000000 + c / 64 * 2 ^ 16 + 0x1000 + 64 * (c % 64) + 8 * x.1
    exec (.hostWindowRead pa 8) s = .next (answered s pa (some (toBytes (x.2 (s.core c) % 2 ^ 64) 8)))) ∧
  (∀ (s s' : State) (pa n : Nat) (bs : List Byte) (po : Bool), paClass pa = 0 ∨ paClass pa = 8 →
    homeRead s whoFirm pa n = .ok bs po s' →
    exec (.hostWindowRead pa n) s = .next (answered s' pa (if po then none else some bs))) ∧
  (∀ (s : State) (pa n : Nat), 0xA000100000000 ≤ pa ∧ pa < 0xA000200000000 ∨ 12 ≤ paClass pa →
    exec (.hostWindowRead pa n) s = .next (answered s pa none))

/-- R4, R211, R321, R398, R399, R412: an 8-byte write of a post address posts; another shape there is an error; a write of a read-only
dome register is ignored; POOLLOW, QTAB and NQHDR take what is written; a write of memory is performed at its home. -/
def Sys2Proof.Claims.HostWritesPostAndStore : Prop :=
  (∀ (s : State) (q : Nat) (bs : List Byte), q < 64 → bs.length = 8 →
    exec (.hostWindowWrite (0xA000100000000 + 8 * q) bs) s =
      .next (answered (post q s) (0xA000100000000 + 8 * q) (some []))) ∧
  (∀ (s : State) (pa : Nat) (bs : List Byte), 0xA000100000000 ≤ pa → pa < 0xA000200000000 →
    (bs.length ≠ 8 ∨ pa % 8 ≠ 0 ∨ 0xA000100000000 + 8 * 64 ≤ pa) →
    exec (.hostWindowWrite pa bs) s = .next (answered s pa none)) ∧
  (∀ (s : State) (d : Nat) (bs : List Byte), d < 128 → bs.length = 8 → ∀ x ∈ domeRegs,
    let pa := 0x9000000000000 + d * 2 ^ 16 + x.1
    (x.1 ≠ 0x18 → x.1 ≠ 0x30 → exec (.hostWindowWrite pa bs) s = .next (answered s pa (some []))) ∧
    (x.1 = 0x18 → exec (.hostWindowWrite pa bs) s =
      .next (answered (s.modDome d (fun k => { k with poolLow := ofBytes bs % 2 ^ 32 })) pa (some [])))) ∧
  (∀ (s : State) (v : W64),
    exec (.registerWrite 0xA000200000018 v) s = .next { s with fw := { s.fw with qtab := v.toNat % 2 ^ 56 } } ∧
    exec (.registerWrite 0xA000200000020 v) s = .next { s with fw := { s.fw with nqhdr := v.toNat % 2 ^ 56 } } ∧
    exec (.registerWrite 0xA000200000000 v) s = .next s) ∧
  (∀ (s s' : State) (pa : Nat) (bs : List Byte), paClass pa = 0 ∨ paClass pa = 8 → offRdptr s pa bs.length →
    homeWrite s whoFirm (.access s.nextId) pa bs false = .ok s' →
    exec (.hostWindowWrite pa bs) s = .next (answered s' pa (some []))) ∧
  (∀ (s s' : State) (pa : Nat) (v : W64), pa % 8 = 0 → paClass pa = 0 ∨ paClass pa = 8 ∨ paClass pa = 12 → offRdptr s pa 8 →
    homeWrite s whoFirm (.access s.nextId) pa (toBytes v.toNat 8) false = .ok s' →
    exec (.eventCounterHostWrite pa v) s = .next (answered s' pa (some [])))

/-- R211, R253, R374, R375, R377: DSTAT's pending bits clear where 1 is written and withdraw their notification; an arming write of
INJCTL counts from its cycle; a write of a monitor's control word clears its captures; an enabled monitor takes one sample
of its source a cycle, none in the cycle of that write. -/
def Sys2Proof.Claims.StatusInjectorAndMonitorWritesAct : Prop :=
  (∀ (s : State) (d : Nat) (v : W64), Gives (.dstatClear d v) s (fun t =>
    (t.dome d).pendLow = ((s.dome d).pendLow && !v.getLsbD 1) ∧
    (t.dome d).pendExh = (if v.getLsbD 2 then none else (s.dome d).pendExh) ∧
    (v.getLsbD 1 = false → v.getLsbD 2 = false → t.notes = s.notes) ∧
    (v.getLsbD 1 = true → v.getLsbD 2 = false → (s.dome d).pendLow = true → ∀ a n b, s.notes = a ++ n :: b → n.code = 0x10 →
      n.index = d → (∀ m ∈ b, ¬ (m.code = 0x10 ∧ m.index = d)) → t.notes = a ++ b) ∧ sameBytes s t)) ∧
  (∀ (s : State) (c : Nat) (v : W64), exec (.injctlWrite c v) s = .next (s.modCore c (fun k =>
    { k with injCtl := v &&& 0x7FFFFFFFFF#64, injFrom := if v.getLsbD 0 then s.now else k.injFrom }))) ∧
  (∀ (s : State) (m : MonAddr) (v : W64), Gives (.monctlWrite m v) s (fun t =>
    t.monitor m = { ctl := v &&& 0x1F3F7F#64, cnt := 0, min := BitVec.allOnes 64, max := 0, hist := [], last := 0,
                    alert := (s.monitor m).alert, wrote := some s.now, took := none } ∧ sameBytes s t)) ∧
  (∀ (s : State) (sp m v : Nat), let k := s.monitor (.spire sp m)
    k.on = true → k.source = 2 → k.took ≠ some s.now → v = (s.core (64 * sp + k.agent)).ldq.length → v < 2 ^ 64 →
    (k.wrote = some s.now → Gives (.monitorSample (.spire sp m) v) s (fun t =>
      t.monitor (.spire sp m) = { k with took := some s.now } ∧ sameBytes s t)) ∧
    (k.wrote ≠ some s.now → Gives (.monitorSample (.spire sp m) v) s (fun t => (t.monitor (.spire sp m)).cnt = (k.cnt + 1) % 2 ^ 64 ∧
      (t.monitor (.spire sp m)).last.toNat = v ∧ (t.monitor (.spire sp m)).min.toNat = min v k.min.toNat ∧
      (t.monitor (.spire sp m)).max.toNat = max v k.max.toNat ∧ (t.monitor (.spire sp m)).ctl = k.ctl ∧
      (t.monitor (.spire sp m)).took = some s.now ∧ sameBytes s t))) ∧
  (∀ (s : State) (a : MonAddr) (v : Nat), (s.monitor a).on = false ∨ (s.monitor a).took = some s.now →
    exec (.monitorSample a v) s = .next s)

/-- R413, R415, R417: BOOTCTL go takes stage 6 to ready and reads the queue headers, those that memory makes wait later; a patch
overlay is refused with its reason, or applied once no launch runs, with every residency tag cleared; an attestation report of 208
bytes is written at ATTADDR, and ATTSTAT becomes 2, or 1 while the write waits; a report asked for meanwhile comes after it. -/
def Sys2Proof.Claims.FirmwareRegistersStartTheirActions : Prop :=
  (∀ (s : State) (v : W64),
    (v.getLsbD 0 = true → s.fw.stage = 6 → Gives (.bootctlGo v) s (fun t => t.fw.stage = 7 ∧ t.fw.bootctl = 1 ∧
      (∀ q l, q < 64 → leaderOf s q = some l →
        (headerGot s q = .wait → q ∈ t.fw.unread) ∧
        (∀ bs h, headerGot s q = .ok bs → qhdrOf bs = some h → (t.queue q).served = true ∧ (t.queue q).rdptr = h.rd ∧
          (t.queue q).wrptr = h.wr ∧ (t.queue q).leader = some l)) ∧ sameBytes s t)) ∧
    (v.getLsbD 0 = false ∨ s.fw.stage ≠ 6 → exec (.bootctlGo v) s =
      .next { s with fw := { s.fw with bootctl := v &&& 1#64 } })) ∧
  (∀ (s : State) (v : W64), s.fw.patchStat.toNat % 4 ≠ 1 → let a := v.toNat % 2 ^ 56
    (readPatch s a = .wait → exec (.patchaddrWrite v) s =
      .next { s with fw := { s.fw with patchAddr := a, patchStat := 1 } }) ∧
    (∀ n, readPatch s a = .refuse n → exec (.patchaddrWrite v) s =
      .next { s with fw := { s.fw with patchAddr := a, patchStat := BitVec.ofNat 64 (3 + n * 256) } }) ∧
    (∀ ver img, readPatch s a = .accept ver img → Gives (.patchaddrWrite v) s (fun t => t.fw.patchAddr = a ∧
      (s.launches = [] → t.fw.patchVer = ver ∧ t.fw.patchHash = Config.sm3 img ∧ t.fw.patchStat = 2 ∧ t.fw.patchHeld = none ∧
        ∀ c, (t.core c).tagImage = none) ∧
      (s.launches ≠ [] → t.fw.patchVer = s.fw.patchVer ∧ t.fw.patchStat = 1 ∧ t.fw.patchHeld = some (ver, Config.sm3 img)) ∧
      sameBytes s t))) ∧
  (∀ (s s' : State) (v : W64),
    let body := fitBytes 32 s.fw.attNonce ++ fitBytes 16 partNumber ++ toBytes Config.romVer.toNat 4 ++
      toBytes s.fw.patchVer.toNat 4 ++ fitBytes 32 s.fw.patchHash ++
      fitBytes 32 (Config.sm3 (liveBytes s.fw.liveCore ++ liveBytes s.fw.liveLant)) ++ toBytes (bandField s) 24
    let put := homeWrite { s with fw := { s.fw with attAddr := v, attJobs := [v] } } whoFirm (.firm v.toNat) v.toNat
      (body ++ fitBytes 64 (Config.sm2Sign (Config.sm3 body))) false
    (s.fw.attJobs = [] → put = .ok s' → Gives (.attaddrWrite v) s (fun t => t.fw.attStat = 2 ∧ t.fw.attJobs = [] ∧ t.fw.attAddr = v ∧
      sameBytes s' t)) ∧
    (s.fw.attJobs = [] → put = .wait s' → exec (.attaddrWrite v) s = .next { s' with fw := { s'.fw with attStat := 1 } }) ∧
    (s.fw.attJobs ≠ [] → exec (.attaddrWrite v) s =
      .next { s with fw := { s.fw with attAddr := v, attJobs := s.fw.attJobs ++ [v] } }))

/-- R343, R344, R400: the first pending event takes the slot at wrptr where there is room: wrptr moves on, the record with its
stamp is written, an interrupt follows; with no room, or where a home makes its record wait, it stays and no interrupt is sent;
the host's write of rdptr frees room, and waiting events keep their count. -/
def Sys2Proof.Claims.NotificationsArePostedInOrder : Prop :=
  (∀ (s s₁ s₂ : State) (n : Note) (rest : List Note) (q : NoteHdr), s.notes = n :: rest → s.noteHdr = some q →
    (q.nslots ≤ used32 q.wr q.rd → exec .notificationPost s = .next s) ∧
    (used32 q.wr q.rd < q.nslots → n.code ≠ 0x10 → n.code ≠ 0x11 →
      let claim := homeWrite s whoFirm (.firm (q.pa + 12)) (q.pa + 12) (toBytes ((q.wr + 1) % 2 ^ 32) 4) false
      (claim = .wait s₁ → exec .notificationPost s = .next s₁ ∧ s₁.irqs = s.irqs) ∧
      (claim = .ok s₁ →
        let put := homeWrite s₁ whoFirm (.firm (q.ring + 32 * (q.wr % q.nslots))) (q.ring + 32 * (q.wr % q.nslots))
          (toBytes n.code 1 ++ toBytes n.source 1 ++ toBytes n.index 2 ++ toBytes 0 4 ++ toBytes n.w0.toNat 8 ++
            toBytes n.w1.toNat 8 ++ toBytes (q.wr + 1) 8) false
        (put = .wait s₂ → exec .notificationPost s = .next s) ∧
        (put = .ok s₂ → Gives .notificationPost s (fun t => t.notes = rest ∧
          t.irqs = s₂.irqs ++ [(q.port, BitVec.ofNat 64 (q.thread + 2 ^ 32))] ∧ sameBytes s₂ t))))) ∧
  (∀ (s s' : State) (v : BitVec 32) (q : NoteHdr), s.noteHdr = some q →
    homeWrite s whoFirm (.access s.nextId) (q.pa + 16) (toBytes v.toNat 4) false = .ok s' →
    Gives (.notificationRdptrWrite v) s (fun t => t.notes.length = s'.notes.length ∧
      t.notes.take (q.nslots - used32 q.wr q.rd) = s'.notes.take (q.nslots - used32 q.wr q.rd) ∧ (∀ n, n ∈ t.notes ↔ n ∈ s'.notes) ∧
      sameBytes s' t))

/-! ## Resets, faults of the hardware, links -/

/-- R193, R194, R373, R413, R414: a panel reset ends with stage 6, every dome formatted at its capacity with nothing in its
balloon, no core of a launch, no queue served, and every byte of the panel zero, scratchpads and lantern memories (from 2^60 on)
among them; a crossing that needs more than 5 cycles halts it at stage 2 with error 2. -/
def Sys2Proof.Claims.PanelResetBringsThePanelUp : Prop :=
  ∀ (s : State) (b : BringUp), s.memOk →
    ((∀ a ∈ b.adders, a + 1 ≤ 5) → Gives (.panelReset b) s (fun t =>
      t.fw.stage = 6 ∧ t.fw.power = 30500 ∧ t.fw.qtab = 0 ∧ t.fw.nqhdr = 0 ∧ t.fw.bootctl = 0 ∧ t.fw.patchVer = 0 ∧
      t.fw.attStat = 0 ∧ t.timeBase = s.now ∧ t.now = s.now ∧
      (∀ d, d < 128 → (t.dome d).formatted = true ∧ (t.dome d).lcap = lcapOf b d ∧ (t.dome d).balloon = [] ∧
        (t.dome d).held = [] ∧ (t.dome d).poolLow = 262144 ∧ (t.dome d).sectors = 0 ∧ (t.dome d).blocks = []) ∧
      (∀ c, t.core c = Core.fresh) ∧ (∀ p, t.pair p = Pair.fresh) ∧ t.launches = [] ∧ t.tops = [] ∧ t.reqs = [] ∧
      (∀ q, (t.queue q).served = false) ∧ t.notes = [] ∧ t.irqs = [] ∧ t.poison = [] ∧ t.bad = [] ∧
      (∀ a, a < 12 * 2 ^ 48 ∨ 2 ^ 60 ≤ a → t.mem.get a = 0) ∧ (∀ a, paClass a = 12 ∨ paClass a = 14 → t.mem.get a = s.mem.get a) ∧ t.fw.noLead = b.noLead)) ∧
    ((∃ a ∈ b.adders, 5 < a + 1) → Gives (.panelReset b) s (fun t => t.fw.stage = 2 ∧ t.fw.error = 2 ∧
      (∀ c, t.core c = Core.fresh) ∧ t.launches = []))

/-- R330, R368, R392, R393: a die reset ends the launches with a core there as TRAPPED with the lowest core of the spire, leaves
every core of it as from bring-up, but for its fault record, and its scratchpads and CLMs zero; a router reset loses nothing; a
failed core, or a failed lantern pair, leaves the live map only between launches, and a core's is posted. -/
def Sys2Proof.Claims.DieAndRouterResetsAndRetirement : Prop :=
  (∀ (s : State) (sp : Nat), s.memOk → Gives (.spireDieReset sp) s (fun t =>
    (∀ c, c / 64 = sp → t.core c = { Core.fresh with frec := (s.core c).frec }) ∧
    (∀ n L, look s.launches n = some L → L.ending = none → (∃ c ∈ L.active, c / 64 = sp) →
      (∀ c ∈ L.active, (s.core c).launch = some n) → ∃ M, look t.launches n = some M ∧ M.ending = some { status := 6, detail := BitVec.ofNat 64 (sp * 64) } ∧
        ∀ c ∈ M.active, c / 64 ≠ sp) ∧
    (∀ x ∈ t.reqs, ∀ c, x.src = .core c → c / 64 ≠ sp) ∧
    (∀ a, localBase (sp * 64) 0 ≤ a → a < localBase (sp * 64) 0 + 2 ^ 28 → t.mem.get a = 0) ∧
    (∀ a, clmBase (sp * 8) ≤ a → a < clmBase (sp * 8) + 2 ^ 25 → t.mem.get a = 0))) ∧
  (∀ (s : State) (site : Nat), exec (.routerReset site) s = .next s) ∧
  (∀ (s : State) (p : Nat), s.launches = [] → p % 64 ∈ s.livePairs (p / 64) → Gives (.coreRetirement (8192 + p)) s (fun t =>
    p % 64 ∉ t.livePairs (p / 64) ∧ (∀ i, i ≠ p % 64 → (i ∈ t.livePairs (p / 64) ↔ i ∈ s.livePairs (p / 64))) ∧
    t.notes = s.notes ∧ sameBytes s t)) ∧
  (∀ (s : State) (c : Nat), (s.launches ≠ [] → exec (.coreRetirement c) s = .next s) ∧
    (s.launches = [] → c < 8192 → c ∈ s.liveCores (c / 64) → Gives (.coreRetirement c) s (fun t => c ∉ t.liveCores (c / 64) ∧
      (∀ d, d / 64 = c / 64 → d ≠ c → (d ∈ t.liveCores (c / 64) ↔ d ∈ s.liveCores (c / 64))) ∧
      (∃ n, t.notes = s.notes ++ [n] ∧ n.code = 2 ∧ n.index = c / 64 ∧ n.w0 = BitVec.ofNat 64 c) ∧ sameBytes s t)))

/-- R63, R169, R182, R198, R205: an uncorrectable error poisons a dome block that stores a sector, or marks the unit of a CLM, a
scratchpad, a dictionary or a lantern memory; a write held 800,000 cycles is abandoned, and its writer receives an error. -/
def Sys2Proof.Claims.UncorrectableErrorsAndAbandonedWrites : Prop :=
  (∀ (s : State) (pa : Nat), paClass pa = 0 → homeKnown s pa 1 = true → s.donatedAt pa = false → s.poisoned pa = false →
    (((s.dome (domeOf pa)).block (blockOf pa)).s ≠ 0 →
      exec (.uncorrectableEccError (.phys pa)) s = .next { s with poison := s.poison ++ [pa / 256 * 256] }) ∧
    (((s.dome (domeOf pa)).block (blockOf pa)).s = 0 → exec (.uncorrectableEccError (.phys pa)) s = .next s)) ∧
  (∀ (s : State) (c sp off : Nat), off < spSize sp → sp < 4 → Gives (.uncorrectableEccError (.scratch c sp off)) s (fun t =>
    t.badUnder (localBase c sp + off) 1 = true ∧ t.mem = s.mem ∧ t.cores = s.cores)) ∧
  (∀ (s : State) (pa : Nat), paClass pa = 8 → homeKnown s pa 1 = true → Gives (.uncorrectableEccError (.phys pa)) s (fun t =>
    t.badUnder pa 1 = true ∧ t.mem = s.mem ∧ t.cores = s.cores)) ∧
  (∀ (s : State) (p off : Nat), off < 65536 → p < 8192 → Gives (.uncorrectableEccError (.lantern p off)) s (fun t =>
    t.badUnder (lanternBase p + off) 1 = true ∧ t.mem = s.mem ∧ t.cores = s.cores)) ∧
  (∀ (s : State) (c e : Nat), e < (s.core c).seq.dict.length → Gives (.uncorrectableEccError (.dict c e)) s (fun t =>
    e ∈ (t.core c).badDict ∧ (t.core c).seq = (s.core c).seq ∧ sameBytes s t)) ∧
  (∀ (s : State) (d : Nat) (h : HeldWrite), (s.dome d).held.find? (fun h => h.since + 800000 ≤ s.now) = some h →
    (∀ id x, h.who = .access id → s.reqs.find? (fun x => x.id == id) = some x → Gives (.heldWriteAbandon d) s (fun t =>
      (t.dome d).abandons = (s.dome d).abandons + 1 ∧ h ∉ (t.dome d).held ∧ (∀ y ∈ t.reqs, y.id ≠ id) ∧
      (∃ r, t.reps = s.reps ++ [r] ∧ r.acc = x ∧ r.poison = true ∧ r.abandoned = true) ∧ sameBytes s t)) ∧
    (∀ a, h.who = .firm a → Gives (.heldWriteAbandon d) s (fun t => (t.dome d).abandons = (s.dome d).abandons + 1 ∧
      h ∉ (t.dome d).held ∧ (s.fw.attJobs = [] → t.fw = s.fw) ∧
      (∀ v, s.fw.attJobs = [v] → v.toNat = a → t.fw.attJobs = [] ∧ t.fw.attStat = 0) ∧ t.notes = s.notes ∧ sameBytes s t)) ∧
    (∀ c e o rest, h.who = .copy c e → (s.eng c e).left = o :: rest → Gives (.heldWriteAbandon d) s (fun t =>
      (t.dome d).abandons = (s.dome d).abandons + 1 ∧ h ∉ (t.dome d).held ∧ (∀ x ∈ (t.eng c e).left, x ∈ rest) ∧
      (∀ r ∈ (t.eng c e).queue, r.tag = o.tag → 5 ≤ r.status) ∧ sameBytes s t))) ∧
  (∀ (s : State) (n : Nat) (r : Reply), s.reps.find? (fun r => r.acc.id == n) = some r → r.poison = true →
    let u := { s with reps := s.reps.filter (fun y => y.acc.id != n) }
    (r.acc.src = .host → exec (.replyLands n) s = .next { u with hostReads := s.hostReads ++ [(r.acc.pa, none)] }) ∧
    (∀ k, r.acc.src = .peer k → exec (.replyLands n) s = .next { u with peerReps := s.peerReps ++ [(k, none)] }))

/-- The state with one more answer to peer k. -/
abbrev peerTold (s : State) (k : Nat) (r : Option (List Byte)) : State := { s with peerReps := s.peerReps ++ [(k, r)] }

/-- R340, R402 to R404, R410: a request of a peer is served at the dome it names and nowhere else; a peer takes a lease, recalls
one of its own pages from the clusters that hold it here, and may refuse a lease, which is posted with reason 3; a lost link ends
what is in flight through it with errors, ends the watches at the peer, drops the leases of both sides, and is posted with reason
2; a link that returns numbers its steps from 0. -/
def Sys2Proof.Claims.PeersAreServedAndLinksLost : Prop :=
  (∀ (s : State) (k pa : Nat), paClass pa ≠ 0 →
    (∀ n, exec (.peerRequest (.read k pa n)) s = .next (peerTold s k none)) ∧
    (∀ bs, exec (.peerRequest (.write k pa bs)) s = .next (peerTold s k none)) ∧
    (∀ op w v c, exec (.peerRequest (.atomic k pa op w v c)) s = .next (peerTold s k none)) ∧
    (∀ v, exec (.peerRequest (.swapv k pa v)) s = .next (peerTold s k none))) ∧
  (∀ (s s₁ s₂ : State) (k pa n : Nat) (bs : List Byte), paClass pa = 0 →
    (∀ po, homeRead s (whoPeer k 4) pa n = .ok bs po s₁ →
      exec (.peerRequest (.read k pa n)) s = .next (peerTold s₁ k (if po then none else some bs))) ∧
    (homeWrite s (whoPeer k 4) (.access s.nextId) pa bs false = .ok s₁ →
      exec (.peerRequest (.write k pa bs)) s = .next (peerTold s₁ k (some []))) ∧
    (∀ v c old, homeRead s (whoPeer k 5) pa 8 = .ok old false s₁ → ofBytes old < 2 ^ 64 →
      homeWrite s (whoPeer k 5) (.access s.nextId) pa (toBytes ((ofBytes old + v.toNat) % 2 ^ 64) 8) false = .ok s₂ →
      exec (.peerRequest (.atomic k pa 0x18 true v c)) s = .next (peerTold s₂ k (some old))) ∧
    (∀ v old, homeRead s (whoPeer k 5) pa 64 = .ok old false s₁ →
      homeWrite s (whoPeer k 5) (.access s.nextId) pa (toBytes v.toNat 64) false = .ok s₂ →
      exec (.peerRequest (.swapv k pa v)) s = .next (peerTold s₂ k (some old)))) ∧
  (∀ (s : State) (k pa cl : Nat), let pg := pa / 65536 * 65536
    paClass pa = 0 → s.pageOk pg false = true → recallOver s pg = false → (s.dome (domeOf pg)).leases.length < 32768 →
    Gives (.peerRequest (.lease k pa cl)) s (fun t => t.peerReps = s.peerReps ++ [(k, some [])] ∧
      (∃ l ∈ (t.dome (domeOf pg)).leases, l.page = pg ∧ l.cluster = 1024 + k) ∧ sameBytes s t)) ∧
  (∀ (s : State) (k pa : Nat) (large : Bool), k < 16 →
    let pg := 0xE000000000000 + k * 2 ^ 44 + pa % 2 ^ 44 / pageSize large * pageSize large
    Gives (.peerRequest (.recall k pa large)) s (fun t => (∃ r ∈ t.recalls, r.page = pg ∧ r.peer = true ∧
      ∀ cl ∈ holdersOf s pg large, cl ∈ r.holders) ∧ sameBytes s t) ∧
    (fillAt s k pa = true → Gives (.peerRequest (.refuse k pa)) s (fun t =>
      (∃ n, t.notes = s.notes ++ [n] ∧ n.code = 0x30 ∧ n.w0 = BitVec.ofNat 64 (k + 3 * 16)) ∧ t.cores = s.cores ∧ sameBytes s t)) ∧
    (fillAt s k pa = false → exec (.peerRequest (.refuse k pa)) s = .next s)) ∧
  (∀ (s : State) (k : Nat), lookD s.fw.portUp k false = true → Gives (.chimelinkLinkLoss k) s (fun t =>
    lookD t.fw.portUp k false = false ∧
    (∀ x ∈ s.reqs, ofSlot k x.pa = true → x.src ≠ .peer k → (∀ y ∈ t.reqs, y.id ≠ x.id) ∧ ∃ r ∈ t.reps, r.acc = x ∧ r.poison = true) ∧
    (∀ d, ∀ l ∈ (t.dome d).leases, l.cluster ≠ 1024 + k) ∧ (∀ l ∈ t.peerLeases, ofSlot k l.page = false) ∧
    (t.cluster (1024 + k)).watches = [] ∧
    (∀ h ∈ (s.cluster (1024 + k)).watches, h.acc.src ≠ .peer k → ∃ r ∈ t.reps, r.acc = h.acc ∧ r.poison = true) ∧
    (∀ d, ∀ h ∈ (t.dome d).watches, h.acc.src ≠ .peer k) ∧
    (∀ cl, cl < 1024 → ∀ e ∈ (t.cluster cl).tlb, ofSlot k e.pa = false) ∧
    (∀ c, c < 8192 → (∀ e ∈ (t.core c).tlb, ofSlot k e.pa = false) ∧
      ∀ h, ((t.core c).handle h).valid = true → ofSlot k ((t.core c).handle h).pa = false) ∧
    (∃ n, t.notes = s.notes ++ [n] ∧ n.code = 0x30 ∧ n.w0 = BitVec.ofNat 64 (k + 2 * 16)) ∧ sameBytes s t)) ∧
  (∀ (s : State) (k : Nat), lookD s.fw.portUp k false = false → lookD s.fw.ports k .none ≠ .none →
    exec (.chimelinkLinkReturn k) s =
      .next { s with fw := { s.fw with portUp := put s.fw.portUp k true, portStep := put s.fw.portStep k 0 } })

/-! ## The step -/

/-- The bits of a bundle stand at position pos of an agent's code: a literal behind the marker, or a dictionary entry (R77). -/
abbrev StandsAt (k : Seq) (pos n next : Nat) (entry : Option Nat) : Prop :=
  fetchAt k.code k.dict pos = some (n, next, entry)

/-- R63, R77, R79, R162: a step runs what is decoded where it fetches. A core's microsequencer runs the microinstruction that its
routine's word at its position decodes to; an agent whose bundle may issue and decodes issues that bundle: its slots run in
three phases over exec, with the marks around them; a turn of another agent runs its instruction. A turn of no agent is a fault
of its own (log entry 5). -/
def Sys2Proof.Claims.StepRunsTheDecodedInstruction : Prop :=
  (∀ (s : State) (c : Nat) (rest : List Turn) (m : MSeq) (ws : List (BitVec 32)) (w : BitVec 32) (x : Instr),
    s.agenda = .micro c :: rest → c < 8192 → (s.mx c).mseq = some m → routineCode (s.mx c) m.routine = some ws →
    ws[m.pos]? = some w → decodeMicro w.toNat = some x →
    step s = exec x { s with agenda := rest, cur := { Cur.fresh with agent := .core c } }) ∧
  (∀ (s : State) (w : Nat) (x : Instr), w < 2 ^ 32 → decodeTableWord 32 w = some x →
    ∃ u, step (s.withFetchWord 32 w) = exec x u ∧ u.cur.agent = .core 0 ∧ u.mem = s.mem ∧ u.agenda = s.agenda) ∧
  (∀ (s : State) (x : Instr) (rest : List Turn), s.agenda = .event x :: rest → isEvent x = true →
    step s = exec x { s with agenda := rest }) ∧
  (∀ (s : State) (a : Agent) (rest : List Turn) (n next : Nat) (entry : Option Nat) (b : Bundle),
    s.agenda = .bundle a :: rest → agentOk a = true →
    let s₀ := { s with agenda := rest }
    let u := settle a s₀
    let pos := (u.seq a).pos
    let s₁ := { u with cur := { Cur.fresh with agent := a, pos := pos } }
    mayIssue s₀ a = true → nextAckFault u a = none → beyondEnd s₁ pos = false → overruns s₁ a = false →
    StandsAt (s₁.seq a) pos n next entry → decodeAt s₁ a n entry = .ok b →
    step s = .next (issueBundle exec a next b s₁)) ∧
  (∀ (s : State) (a : Agent) (rest : List Turn), s.agenda = .bundle a :: rest → agentOk a = true →
    mayIssue { s with agenda := rest } a = false → step s = .next { s with agenda := rest }) ∧
  (∀ (s : State) (a : Agent) (rest : List Turn), s.agenda = .bundle a :: rest → agentOk a = false →
    step s = .fault .noSuchAgent) ∧
  (∀ (ph : Phase) (s : State) (pos : Pos) (x : Instr) (t : State),
    exec x { s with cur := { s.cur with phase := ph } } = .next t →
    runPhase exec ph [(pos, x)] s = t)

/-- R4, R348: the clock goes on by one cycle at a clock turn, where nothing of this cycle is left to be done. -/
def Sys2Proof.Claims.ClockTurnsAdvanceTheCycle : Prop :=
  ∀ (s : State) (rest : List Turn), s.agenda = .cycle :: rest →
    let u := { s with agenda := rest }
    (tickReady u = true → ∃ t, step s = .next t ∧ t.now = s.now + 1 ∧ t.agenda = rest) ∧
    (tickReady u = false → step s = .next u)

/-! ## Encodings -/

/-- R60, R63, R67 to R76: what an instruction's slot or microinstruction word encodes is what it decodes to, and a word decodes only
where it is the encoding of what it decodes to. -/
def Sys2Proof.Claims.DecodingUndoesEncoding : Prop :=
  (∀ (th : Thread) (x : Instr) (p : Pre), preOf x = some p → legal th x = true → accepts th p.pos x = true →
    encodeSlot x < 2 ^ slotWidth p.pos ∧ decodeSlot th p.pos (encodeSlot x) = .ok x) ∧
  (∀ (th : Thread) (pos : Pos) (n : Nat) (x : Instr), decodeSlot th pos n = .ok x → encodeSlot x = n ∧ legal th x = true) ∧
  (∀ x : Instr, encodeMicro x ≠ 2 ^ 32 → legal .core x = true →
    encodeMicro x < 2 ^ 32 ∧ decodeTableWord 32 (encodeMicro x) = some x) ∧
  (∀ (n : Nat) (x : Instr), decodeTableWord 32 n = some x → encodeMicro x = n ∧ legal .core x = true)

/-- The words that the spec writes out, each with what it stands for (R118, R126, R133, R154, R156, R162, R166, R313, R331, R364). -/
def Sys2Proof.Claims.WorkedWordsDecode : Prop :=
  decodeSlot .core .sc 0x1000400380000 = .ok (.add ⟨.sc, false, 0, false⟩ ⟨2, 0, 1, true, true, 0, 0⟩) ∧
  decodeSlot .core .sc 0x80000000E0000 = .ok (.br ⟨.sc, false, 0, false⟩ ⟨28, 0, false, 0⟩) ∧
  decodeSlot .core .sc 0xB603000000000 = .ok (.bexcuse ⟨.sc, false, 0, false⟩ ⟨3, 0, 0⟩) ∧
  decodeSlot .core .va 0x1600140080140351 = .ok (.vfma ⟨.va, false, 0, false⟩ ⟨20, 4, 5, 6, 10, 0, true⟩) ∧
  decodeSlot .lanE .va 0x1005FEBFF7FCA000 =
    .ok (.vadd ⟨.va, false, 0, false⟩ ⟨1534, 1535, 1535, false, false, 10, 0, 0⟩) ∧
  decodeSlot .core .mx 0x2000820000 = .ok (.mcall ⟨.mx, false, 0, false⟩ ⟨1, 0, 1⟩) ∧
  decodeSlot .core .mx 0x4000100000 = .ok (.msetk ⟨.mx, false, 0, false⟩ ⟨0, 4, false⟩) ∧
  decodeSlot .core .cb 0x56044511923000 =
    .ok (.cpysum ⟨.cb, false, 0, false⟩ ⟨true, 2, 5, 4, false, true, true, 9, 6, false⟩) ∧
  decodeSlot .core .ca 0x60008484000000 = .ok (.xlat ⟨.ca, false, 0, false⟩ ⟨2, 4, true, 0, true⟩) ∧
  decodeSlot .core .ca 0x62004000000000 = .ok (.hrel ⟨.ca, false, 0, false⟩ ⟨1, 0, false, 0, false⟩) ∧
  decodeSlot .core .ca 0x64004018000000 = .ok (.htest ⟨.ca, false, 0, false⟩ ⟨1, 0, false, 3, false⟩) ∧
  [0x3A900000, 0x20800000, 0x41800000, 0x08000000, 0x10000000, 0x18800000, 0x38D00000, 0x50000000, 0x58000000, 0x48000000,
    0x68000000].map (decodeTableWord 32) =
    [some (.ustep 2 true false true 0), some (.uzacc 0 true 0), some (.uloop 1 true 0), some (.ufeta 0 false 0),
     some (.ufetb false), some (.umac 0 true 0 false), some (.ustep 0 true true true 0), some .upopa, some .upopb,
     some .uendl, some .uret]

/-! ## Invariants and reset -/

/-- Memory keeps its canonical form over every step, so that equal memories are equal data (a property of the model's own choice of
how memory is written down; log entry 98). -/
def Sys2Proof.Claims.EveryStepKeepsMemoryCanonical : Prop :=
  ∀ s t : State, s.memOk → step s = .next t → t.memOk

/-- R97, R193, R211, R374, R377, R413: what reset leaves: no program running, bring-up at stage 0, every byte zero, and the registers
at the values that the spec gives them; its memory has the canonical form (log entries 8, 9). -/
def Sys2Proof.Claims.ResetLeavesThePanelDown : Prop :=
  State.reset.memOk ∧ (∀ a, State.reset.mem.get a = 0) ∧ State.reset.fw.stage = 0 ∧ State.reset.fw.error = 0 ∧
  State.reset.fw.qtab = 0 ∧ State.reset.fw.nqhdr = 0 ∧ State.reset.fw.bootctl = 0 ∧ State.reset.fw.patchVer = 0 ∧
  State.reset.launches = [] ∧ State.reset.reqs = [] ∧ State.reset.notes = [] ∧
  (∀ c, (State.reset.core c).mode = .free ∧ (State.reset.core c).uivec = 0xFFFFFF#24 ∧ (State.reset.core c).uistat = 0 ∧
    (State.reset.core c).faultMask = 0 ∧ (State.reset.core c).injCtl = 0) ∧
  (∀ d, (State.reset.dome d).formatted = false ∧ (State.reset.dome d).poolLow = 262144 ∧ (State.reset.dome d).balloon = []) ∧
  (∀ m, (State.reset.monitor m).ctl = 0 ∧ (State.reset.monitor m).cnt = 0 ∧ (State.reset.monitor m).min = BitVec.allOnes 64)

/-! ## Division at its limits, and slices -/

/-- R114: division truncates toward zero, the remainder takes the sign of the dividend and makes up the difference, and the two
borderline cases give the fixed results of the rule's table. -/
def Sys2Proof.Claims.DivisionTruncatesWithFixedLimits : Prop :=
  ∀ (p : Pre) (f : FmtS3) (s t : State) (a b : V512), Ready p 0 [.x f.xa.toNat f.pa, .x f.xb.toNat f.pb] s [a, b] t →
    let w := opWidth f.sz
    let A := asInt true w (low w a)
    let B := asInt true w (low w b)
    (B ≠ 0 → ∃ q r : Int,
      Pushes (.div p f) s t (xq s f.xd) (s.at + 20) (toV (extend true w q)) ∧
      Pushes (.rem p f) s t (xq s f.xd) (s.at + 20) (toV (extend true w r)) ∧
      A = B * q + r ∧ r.natAbs < B.natAbs ∧ (0 ≤ A → 0 ≤ r) ∧ (A ≤ 0 → r ≤ 0) ∧
      (A = -2 ^ (w - 1) → B = -1 → extend true w q = extend true w (-2 ^ (w - 1)) ∧ r = 0)) ∧
    (low w b ≠ 0 → ∃ q r : Nat,
      Pushes (.divn p f) s t (xq s f.xd) (s.at + 20) (toV (extend false w q)) ∧
      Pushes (.remn p f) s t (xq s f.xd) (s.at + 20) (toV (extend false w r)) ∧ low w a = low w b * q + r ∧ r < low w b) ∧
    (low w b = 0 →
      Pushes (.div p f) s t (xq s f.xd) (s.at + 20) (toV (extend true w (-1))) ∧
      Pushes (.rem p f) s t (xq s f.xd) (s.at + 20) (toV (extend true w A)) ∧
      Pushes (.divn p f) s t (xq s f.xd) (s.at + 20) (toV (extend false w (2 ^ w - 1 : Nat))) ∧
      Pushes (.remn p f) s t (xq s f.xd) (s.at + 20) (toV (extend false w (low w a : Nat))))

/-- R20, R21: the slices of a nest's N iterations over P cores follow each other without a gap, have the stated start and length, end
at N, and are empty exactly where N < P and c ≥ N. -/
def Sys2Proof.Claims.SlicesTileTheNest : Prop :=
  ∀ N P c : Nat, c < P →
    sliceOf N P c = (c * (N / P) + min c (N % P), N / P + if c < N % P then 1 else 0) ∧
    (sliceOf N P (c + 1)).1 = (sliceOf N P c).1 + (sliceOf N P c).2 ∧
    (c + 1 = P → (sliceOf N P c).1 + (sliceOf N P c).2 = N) ∧
    ((sliceOf N P c).2 = 0 ↔ N < P ∧ N ≤ c)

/-! ## The obligations: each joins the claims above that speak of one part of the machine -/

/-- DIV, REM, DIVN and REMN truncate toward zero, with fixed results at their limits. -/
def Obligations.DivisionTruncatesWithFixedLimits : Prop := Sys2Proof.Claims.DivisionTruncatesWithFixedLimits

/-- A scalar compare sets all bits of pd where its relation holds, else clears it. -/
def Obligations.ScalarComparesSetOrClearPd : Prop := Sys2Proof.Claims.ScalarCompareWritesPredicate

/-- Scalar arithmetic pushes its extended w-bit result after its latency. -/
def Obligations.ScalarArithmeticPushesItsResult : Prop := 
  Sys2Proof.Claims.ScalarTwoSourcePushesResult ∧
  Sys2Proof.Claims.ScalarOneSourcePushesResult ∧
  Sys2Proof.Claims.ScalarImmediatePushesResult

/-- Predicate forms, moves, constants and the forms that do nothing. Where it rests on a choice of the model: log entry 21. -/
def Obligations.PredicateFormsAndMovesGiveTheirValue : Prop := 
  Sys2Proof.Claims.PredicateFormsWriteTheirResult ∧
  Sys2Proof.Claims.MovesAndConstantsPushTheirValue

/-- BR, BRX, CALL and RET reach their target, trap at their limits and obey an active nest. Where it rests on a choice of the
model: log entries 30, 121. -/
def Obligations.TransfersGoToTargetsAndObeyTheNest : Prop := 
  Sys2Proof.Claims.TransfersGoToTheirTarget ∧
  Sys2Proof.Claims.TransfersTrapAtTheirLimits ∧
  Sys2Proof.Claims.TransfersObeyTheNest

/-- LSET fills the pending nest, LRUN starts it. Where it rests on a choice of the model: log entry 30. -/
def Obligations.LoopFormsSetAndStartTheNest : Prop := Sys2Proof.Claims.LoopFormsSetAndStartTheNest

/-- RDCR reads the control registers, WRCR writes UIVEC and UISTAT. Where it rests on a choice of the model: log entry 19. -/
def Obligations.ControlRegistersReadAndWrite : Prop := 
  Sys2Proof.Claims.RdcrPushesTheControlRegister ∧
  Sys2Proof.Claims.WrcrSchedulesTheInterruptRegisters ∧
  Sys2Proof.Claims.InterruptRegisterWritesTakeEffect

/-- TRAP raises its code, UIRET leaves the handler. -/
def Obligations.TrapReportsAndUiretReturns : Prop := Sys2Proof.Claims.TrapRaisesItsCode ∧ Sys2Proof.Claims.UiretLeavesTheHandler

/-- BELL, BWAIT, BTEST, BEXCUSE, and the climb and release of arrivals. Where it rests on a choice of the model: log entries
27, 28, 57. -/
def Obligations.BellsCollectAndReleaseArrivals : Prop := 
  Sys2Proof.Claims.BellArrivesAtItsBell ∧
  Sys2Proof.Claims.BellWaitsAndTests ∧
  Sys2Proof.Claims.BexcuseLeavesTheBell ∧
  Sys2Proof.Claims.BellsReleaseOnTheLastArrival

/-- Restart mark, quiet region, END and the overrun of a region. Where it rests on a choice of the model: log entries 20, 44,
121. -/
def Obligations.BundleMarksActOnTheirCore : Prop := Sys2Proof.Claims.MarksActOnTheirCore

/-- One-, two- and three-source vector arithmetic and shifts, lane by lane. -/
def Obligations.VectorArithmeticWorksLaneByLane : Prop := 
  Sys2Proof.Claims.VectorTwoSourceWorksLaneByLane ∧
  Sys2Proof.Claims.VectorOneSourceWorksLaneByLane ∧
  Sys2Proof.Claims.VectorThreeSourceWorksLaneByLane ∧
  Sys2Proof.Claims.VectorShiftsWorkLaneByLane

/-- Vector compares write predicates by byte; permutes move lanes. -/
def Obligations.VectorComparesAndPermutes : Prop := 
  Sys2Proof.Claims.VectorComparesWritePredicateByByte ∧
  Sys2Proof.Claims.VectorPermutesMoveLanes

/-- Vector reductions, VCVT, VDQNT, VBSCALE and VQNT. Where it rests on a choice of the model: log entry 135. -/
def Obligations.VectorReductionsAndConversions : Prop := 
  Sys2Proof.Claims.VectorReductionsCombineTheLanes ∧
  Sys2Proof.Claims.VectorConversionsPushTheirResult ∧
  Sys2Proof.Claims.VqntEncodesAndCountsUnderflow

/-- Reads pop or peek the oldest entry; stream sources read their elements; misuse of a queue traps. Where it rests on a
choice of the model: log entry 116. -/
def Obligations.SourcesReadAndQueuesTrapWhenMisused : Prop := 
  Sys2Proof.Claims.SourcesReadAsTheirCodeSays ∧
  Sys2Proof.Claims.StreamsReadTheirElements ∧
  Sys2Proof.Claims.QueueMisuseTraps

/-- What a slot that is not true, reading, pushing and any slot instruction leave unchanged. Where it rests on a choice of the
model: log entry 116. -/
def Obligations.SlotInstructionsKeepTheirFrame : Prop := 
  Sys2Proof.Claims.SlotThatIsNotTrueDoesNothing ∧
  Sys2Proof.Claims.ReadingLeavesTheRest ∧
  Sys2Proof.Claims.PushingLeavesTheRest ∧
  Sys2Proof.Claims.SlotInstructionsLeaveMemory

/-- A plain-register write changes its register and nothing else; p0 stays all ones. Where it rests on a choice of the model:
log entry 120. -/
def Obligations.PlainWritesTakeEffectInTheirRegister : Prop := Sys2Proof.Claims.PlainWritesTakeEffect

/-- A trap writes FAULTMASK, CAUSE, EPC and the fault record, and stops issue. Where it rests on a choice of the model: log
entries 31, 36. -/
def Obligations.TrapsWriteTheFaultRegisters : Prop := Sys2Proof.Claims.TrapsWriteTheFaultRegisters

/-- The MX forms queue matrix commands, write k registers, and wait. -/
def Obligations.MatrixSlotsQueueTheirCommand : Prop := Sys2Proof.Claims.MatrixSlotsQueueTheirCommand

/-- Matrix commands run in order, drains write rows, faults are deferred. Where it rests on a choice of the model: log entries
3, 42, 125. -/
def Obligations.MatrixCommandsRunDrainAndFault : Prop := 
  Sys2Proof.Claims.MatrixCommandsRunInOrder ∧
  Sys2Proof.Claims.MdrainWritesItsRows ∧
  Sys2Proof.Claims.DeferredMatrixFaultTraps

/-- One-cycle microinstructions, USYNC and URET. -/
def Obligations.MicroinstructionsStepAndReturn : Prop := Sys2Proof.Claims.MicroinstructionsStepTheSequencer ∧ Sys2Proof.Claims.MicroSyncAndReturn

/-- UFETB loads a tile, UZACC clears rows, UMAC accumulates. Where it rests on a choice of the model: log entries 3, 40, 41,
136, 123, 125, 117, 118. -/
def Obligations.MatrixArrayLoadsClearsAndAccumulates : Prop := 
  Sys2Proof.Claims.UfetbLoadsATile ∧
  Sys2Proof.Claims.LoadedBanksHoldTheirTile ∧
  Sys2Proof.Claims.UzaccClearsItsRows ∧
  Sys2Proof.Claims.UmacAccumulatesItsRows ∧
  Sys2Proof.Claims.MatrixRowsFollowEachCycle

/-- Local loads read at issue; local stores are performed after their latency. Where it rests on a choice of the model: log
entries 36, 10, 70, 117. -/
def Obligations.LocalLoadsAndStoresKeepTheirTimes : Prop := 
  Sys2Proof.Claims.LocalLoadsReadTheirSpace ∧
  Sys2Proof.Claims.LocalStoresWaitTheirLatency ∧
  Sys2Proof.Claims.PerformedStoresWriteTheirBytes

/-- SPILL stores and forwards; FILL takes the youngest bytes. Where it rests on a choice of the model: log entries 39, 80,
107, 36, 24. -/
def Obligations.SpillsForwardToFills : Prop := Sys2Proof.Claims.SpillStoresAndForwards ∧ Sys2Proof.Claims.FillTakesTheYoungestBytes

/-- LD, LDV, LDA, GSET and DLD enter the load queue. Where it rests on a choice of the model: log entry 35. -/
def Obligations.HandleLoadsWaitForTheirReply : Prop := Sys2Proof.Claims.LoadsEnterTheLoadQueue ∧ Sys2Proof.Claims.RegisterLoadsWaitForTheirReply

/-- ST, STV and STL enter their queue; the faults of every handle access trap in order. Where it rests on a choice of the
model: log entries 24, 35. -/
def Obligations.HandleStoresEnterOrTrapInOrder : Prop := Sys2Proof.Claims.HandleStoresEnterTheirQueue ∧ Sys2Proof.Claims.HandleFaultsTrapInOrder

/-- The atomics and ASWAPV enter the store queue. Where it rests on a choice of the model: log entry 24. -/
def Obligations.AtomicsEnterTheStoreQueue : Prop := Sys2Proof.Claims.AtomicsEnterTheStoreQueue ∧ Sys2Proof.Claims.AswapvExchangesAVector

/-- MARK and FENCE leave ordering points; WAITV waits. Where it rests on a choice of the model: log entries 59, 127. -/
def Obligations.OrderingFormsAndWaitv : Prop := Sys2Proof.Claims.OrderingFormsAndWaitv

/-- A home serves loads, stores, watches and atomics, each in one step. Where it rests on a choice of the model: log entries
33, 17, 111. -/
def Obligations.HomesServeAccessesInOneStep : Prop := 
  Sys2Proof.Claims.RequestsArriveAtTheirHome ∧
  Sys2Proof.Claims.HomesServeLoadsAndStores ∧
  Sys2Proof.Claims.OtherHomesServeLoadsAndStores ∧
  Sys2Proof.Claims.HomesWatchForWaitv ∧
  Sys2Proof.Claims.HomesPerformAtomics

/-- Queue heads are sent, replies land in their entries. Where it rests on a choice of the model: log entries 29, 107, 127,
133. -/
def Obligations.QueuedAccessesAreSentAndLand : Prop := Sys2Proof.Claims.AccessesAreSentAndLand

/-- CPY, CPY2, CPYN, CPYSUM queue a command; CWAIT and CSTAT answer for it. Where it rests on a choice of the model: log
entries 37, 43, 36. -/
def Obligations.CopyCommandsAreQueuedAndAnswered : Prop := Sys2Proof.Claims.CopyFormsQueueTheirCommand ∧ Sys2Proof.Claims.CopyTagsAreAnswered

/-- A copy engine starts, moves chunks, folds and inverts what it writes, and reports. Where it rests on a choice of the
model: log entries 38, 3, 109, 110, 111. -/
def Obligations.CopyEnginesMoveAndReport : Prop := Sys2Proof.Claims.CopyEnginesMoveAndReport

/-- XLAT, HREL, HTEST, fills and recalls. Where it rests on a choice of the model: log entries 95, 29, 130, 120. -/
def Obligations.HandlesAndTlbsFollowTheTables : Prop := Sys2Proof.Claims.HandleFormsWriteTheirRegister ∧ Sys2Proof.Claims.FillsAndRecallsKeepTheTlbs

/-- T-op forms issue; TWAIT waits; TWHERE tells the placement. Where it rests on a choice of the model: log entries 22, 23. -/
def Obligations.PlacedOperationsIssueAndAreWaitedFor : Prop := Sys2Proof.Claims.TopFormsIssue ∧ Sys2Proof.Claims.TopWaitsAndTwhere

/-- Every placed form completes: TADD to TGV and the collectives issue, TWAIT waits or goes on, TWHERE tells. Where it rests
on a choice of the model: log entry 129. -/
def Obligations.PlacedFormsComplete : Prop := Sys2Proof.Claims.PlacedFormsComplete

/-- T-ops are placed, claimed, completed and reported. Where it rests on a choice of the model: log entries 45, 46, 83, 47,
48, 3. -/
def Obligations.PlacedOperationsRunTileByTile : Prop := Sys2Proof.Claims.TopsArePlacedAndClaimed ∧ Sys2Proof.Claims.TopsCompleteAndReport

/-- What a tile makes of its elements. Where it rests on a choice of the model: log entry 118. -/
def Obligations.TileElementsFollowTheirOperation : Prop := 
  Sys2Proof.Claims.TileElementsFollowTheirOperation ∧
  Sys2Proof.Claims.GrammarBandsFollowTheirBlocks

/-- Collectives take a step, form a result, confirm digests, retry. Where it rests on a choice of the model: log entries 51,
50, 49, 129. -/
def Obligations.CollectivesRunTheirSteps : Prop := Sys2Proof.Claims.CollectivesRunTheirSteps

/-- VRULE steps the rule unit of its pair. -/
def Obligations.VruleStepsTheRuleUnit : Prop := Sys2Proof.Claims.VruleStepsTheRuleUnit

/-- Late results freeze a group; release, power freezes, the watchdog. Where it rests on a choice of the model: log entries
26, 61, 134. -/
def Obligations.FreezesStopTheirGroupAndTimeOut : Prop := Sys2Proof.Claims.FreezesStopTheirGroup ∧ Sys2Proof.Claims.FreezeTimeoutTraps

/-- Interrupt entry, trap report, rollback, reload and stop. Where it rests on a choice of the model: log entries 42, 60, 62,
97, 132. -/
def Obligations.InterruptsReportsAndRollbacksActAtBoundaries : Prop := 
  Sys2Proof.Claims.UserInterruptEntersItsHandler ∧
  Sys2Proof.Claims.ReportsRollbacksReloadsAndStops

/-- Lantern programs are loaded, run by segment, halt and fault. Where it rests on a choice of the model: log entries 32, 63.
-/
def Obligations.LanternProgramsRunTheirSegments : Prop := Sys2Proof.Claims.LanternProgramsRunTheirSegments

/-- Posts and handovers read headers; arbitration starts heads; completion keeps the status. Where it rests on a choice of the
model: log entries 76, 69, 68, 65. -/
def Obligations.QueuesPostStartAndCompleteCommands : Prop := 
  Sys2Proof.Claims.CompletionKeepsStatusAndDetail ∧
  Sys2Proof.Claims.PostsAndHandoversReadTheHeader ∧
  Sys2Proof.Claims.ArbitrationStartsTheHead

/-- Completion records and their interrupts. Where it rests on a choice of the model: log entries 34, 76. -/
def Obligations.RecordsAndTheirInterrupts : Prop := Sys2Proof.Claims.RecordsAndTheirInterrupts

/-- A LAUNCH is checked in order and dispatched over its grid; slices tile the nest. Where it rests on a choice of the model:
log entries 77, 78, 79, 80. -/
def Obligations.LaunchChecksAndDispatches : Prop := Sys2Proof.Claims.SlicesTileTheNest ∧ Sys2Proof.Claims.LaunchChecksAndDispatches

/-- PREEMPT stops and saves a launch; a resumed LAUNCH restores it. Where it rests on a choice of the model: log entries 52,
53, 54, 55, 56, 82, 124. -/
def Obligations.LaunchesArePreemptedAndResumed : Prop := Sys2Proof.Claims.ResumeRestoresTheCores ∧ Sys2Proof.Claims.PreemptStopsAndSavesALaunch

/-- Dispatch release, freeing of cores, completion of a launch. Where it rests on a choice of the model: log entry 64. -/
def Obligations.LaunchesAreReleasedFreedAndCompleted : Prop := Sys2Proof.Claims.LaunchesAreReleasedFreedAndCompleted

/-- TOP, COPY, WAITEV and SIGNAL commands. Where it rests on a choice of the model: log entries 48, 68, 75, 74, 3, 128. -/
def Obligations.TopCopyAndEventCommandsComplete : Prop := Sys2Proof.Claims.TopAndCopyCommandsRun ∧ Sys2Proof.Claims.EventCountersOrderQueues

/-- SETMODE, FENCE and COMPLETE. -/
def Obligations.ModesAndFencesComplete : Prop := Sys2Proof.Claims.ModesAndFencesComplete

/-- MAP, UNMAP, MIGRATE, BALLOON, balloon takes and refresh management. Where it rests on a choice of the model: log entries
72, 73, 71, 15, 17. -/
def Obligations.PagesAreMappedAndBalloonsKept : Prop := Sys2Proof.Claims.PagesAreMappedUnmappedAndMoved ∧ Sys2Proof.Claims.BalloonPagesComeAndGo

/-- Host window reads and writes, posts, and writes that start an action. Where it rests on a choice of the model: log entries
88, 89, 87. -/
def Obligations.HostAccessesReachRegistersAndMemory : Prop := 
  Sys2Proof.Claims.HostReadsRegistersAndMemory ∧
  Sys2Proof.Claims.HostWritesPostAndStore ∧
  Sys2Proof.Claims.StatusInjectorAndMonitorWritesAct

/-- BOOTCTL go, patch overlays and attestation. Where it rests on a choice of the model: log entries 16, 90. -/
def Obligations.FirmwareRegistersStartTheirActions : Prop := Sys2Proof.Claims.FirmwareRegistersStartTheirActions

/-- Notifications take the next slot where there is room. Where it rests on a choice of the model: log entries 96, 34. -/
def Obligations.NotificationsArePostedInOrder : Prop := Sys2Proof.Claims.NotificationsArePostedInOrder

/-- Panel reset, die reset, router reset and core retirement. Where it rests on a choice of the model: log entries 11, 14, 66,
67, 93, 9, 115, 91, 8, 94, 106. -/
def Obligations.ResetsBringUpAndClear : Prop := 
  Sys2Proof.Claims.PanelResetBringsThePanelUp ∧
  Sys2Proof.Claims.DieAndRouterResetsAndRetirement

/-- Uncorrectable errors, abandoned writes, peers and lost links. Where it rests on a choice of the model: log entries 92, 84,
85, 18, 46. -/
def Obligations.ErrorsAbandonmentsAndPeerLinks : Prop := 
  Sys2Proof.Claims.UncorrectableErrorsAndAbandonedWrites ∧
  Sys2Proof.Claims.PeersAreServedAndLinksLost

/-- A step runs what is decoded where it fetches. Where it rests on a choice of the model: log entries 1, 5, 13. -/
def Obligations.StepRunsTheDecodedInstruction : Prop := Sys2Proof.Claims.StepRunsTheDecodedInstruction

/-- A clock turn advances the cycle where nothing of it is left to do. Where it rests on a choice of the model: log entry 2.
-/
def Obligations.ClockTurnsAdvanceTheCycle : Prop := Sys2Proof.Claims.ClockTurnsAdvanceTheCycle

/-- The words that the spec writes out decode to what they stand for. -/
def Obligations.WorkedWordsDecode : Prop := Sys2Proof.Claims.WorkedWordsDecode

/-- Decoding undoes encoding for every admitted slot and microinstruction, and only encodings decode. -/
def Obligations.DecodingUndoesEncoding : Prop := Sys2Proof.Claims.DecodingUndoesEncoding

/-- Every step keeps the canonical form of memory. Where it rests on a choice of the model: log entry 98. -/
def Obligations.EveryStepKeepsMemoryCanonical : Prop := Sys2Proof.Claims.EveryStepKeepsMemoryCanonical

/-- Reset: no program, stage 0, every byte zero, memory canonical. Where it rests on a choice of the model: log entries 8, 9,
98. -/
def Obligations.ResetLeavesThePanelDown : Prop := Sys2Proof.Claims.ResetLeavesThePanelDown
end

