-- ==== Sys2Proof/Laws/Memory.lean ====
section
/-! SUPPORT. The byte store: reads after writes, and that every operation keeps the canonical form. -/

namespace Sys2Proof.Laws

open Sys2Proof.Machine

/-! ## The canonical form -/

theorem wfFrom_mono {lo hi : Nat} {m : Memory} (h : Memory.wfFrom hi m = true) (le : lo ≤ hi) :
    Memory.wfFrom lo m = true := by
  cases m with
  | nil => rfl
  | cons x m =>
    obtain ⟨k, b⟩ := x
    simp only [Memory.wfFrom, Bool.and_eq_true, decide_eq_true_eq] at h ⊢
    exact ⟨⟨by omega, h.1.2⟩, h.2⟩

/-- A byte below every listed address reads as zero. -/
theorem get_below {m : Memory} {lo a : Nat} (h : Memory.wfFrom lo m = true) (lt : a < lo) : m.get a = 0 := by
  cases m with
  | nil => rfl
  | cons x m =>
    obtain ⟨k, b⟩ := x
    simp only [Memory.wfFrom, Bool.and_eq_true, decide_eq_true_eq] at h
    have ne : ¬ k = a := by omega
    have lt' : a < k := by omega
    simp [Memory.get, ne, lt']

theorem set_before {m : Memory} {k a : Nat} (c b : Byte) (h : a < k) :
    Memory.set ((k, c) :: m) a b = if b = 0#8 then (k, c) :: m else (a, b) :: (k, c) :: m := by
  by_cases hb : b = 0#8 <;> simp [Memory.set, h, hb]

theorem set_here {m : Memory} (k : Nat) (c b : Byte) :
    Memory.set ((k, c) :: m) k b = if b = 0#8 then m else (k, b) :: m := by
  by_cases hb : b = 0#8 <;> simp [Memory.set, hb]

theorem set_after {m : Memory} {k a : Nat} (c b : Byte) (h : k < a) :
    Memory.set ((k, c) :: m) a b = (k, c) :: Memory.set m a b := by
  have h1 : ¬ a < k := by omega
  have h2 : ¬ a = k := by omega
  simp [Memory.set, h1, h2]

theorem wfFrom_cons (lo k : Nat) (c : Byte) (m : Memory) :
    Memory.wfFrom lo ((k, c) :: m) = true ↔ lo ≤ k ∧ ¬ c = 0#8 ∧ Memory.wfFrom (k + 1) m = true := by
  simp [Memory.wfFrom, and_assoc]

theorem wfFrom_set {m : Memory} {lo a : Nat} (b : Byte) (h : Memory.wfFrom lo m = true) (le : lo ≤ a) :
    Memory.wfFrom lo (m.set a b) = true := by
  induction m generalizing lo with
  | nil =>
    by_cases hb : b = 0#8
    · simp [Memory.set, Memory.wfFrom, hb]
    · simpa [Memory.set, Memory.wfFrom, hb] using le
  | cons x m ih =>
    obtain ⟨k, c⟩ := x
    obtain ⟨hk, hc, hm⟩ := (wfFrom_cons lo k c m).1 h
    rcases Nat.lt_trichotomy a k with h1 | h1 | h1
    · rw [set_before c b h1]
      by_cases hb : b = 0#8
      · rw [if_pos hb]; exact h
      · rw [if_neg hb, wfFrom_cons, wfFrom_cons]
        exact ⟨le, hb, h1, hc, hm⟩
    · subst h1
      rw [set_here]
      by_cases hb : b = 0#8
      · rw [if_pos hb]; exact wfFrom_mono hm (by omega)
      · rw [if_neg hb, wfFrom_cons]; exact ⟨le, hb, hm⟩
    · rw [set_after c b h1, wfFrom_cons]
      exact ⟨hk, hc, ih hm h1⟩

/-- Writing a byte keeps the canonical form. -/
theorem wf_set {m : Memory} (a : Nat) (b : Byte) (h : m.wf = true) : (m.set a b).wf = true :=
  wfFrom_set b h (Nat.zero_le a)

/-- Writing bytes keeps the canonical form. -/
theorem wf_write (bs : List Byte) : ∀ {m : Memory} (a : Nat), m.wf = true → (m.write a bs).wf = true := by
  induction bs with
  | nil => intro m a h; exact h
  | cons b bs ih => intro m a h; exact ih (a + 1) (wf_set a b h)

theorem wfFrom_filter {m : Memory} {lo : Nat} (f : Host.Cell → Bool) (h : Memory.wfFrom lo m = true) :
    Memory.wfFrom lo (m.filter f) = true := by
  induction m generalizing lo with
  | nil => rfl
  | cons x m ih =>
    obtain ⟨k, b⟩ := x
    simp only [Memory.wfFrom, Bool.and_eq_true, decide_eq_true_eq] at h
    obtain ⟨⟨hk, hb⟩, hm⟩ := h
    by_cases hf : f (k, b) = true
    · rw [List.filter_cons_of_pos hf]
      simp only [Memory.wfFrom, Bool.and_eq_true, decide_eq_true_eq]
      exact ⟨⟨hk, hb⟩, ih hm⟩
    · rw [List.filter_cons_of_neg hf]
      exact wfFrom_mono (ih hm) (by omega)

/-- Dropping cells keeps the canonical form. -/
theorem wf_filter {m : Memory} (f : Host.Cell → Bool) (h : m.wf = true) : Memory.wf (m.filter f) = true :=
  wfFrom_filter f h

/-- Clearing a range keeps the canonical form. -/
theorem wf_clear {m : Memory} (lo hi : Nat) (h : m.wf = true) : (m.clear lo hi).wf = true := wf_filter _ h

/-! ## Reads after writes -/

theorem get_cons (k : Nat) (c : Byte) (m : Memory) (x : Nat) :
    Memory.get ((k, c) :: m) x = if k = x then c else if x < k then 0#8 else m.get x := by
  by_cases h : k = x <;> simp [Memory.get, h]

theorem get_set {m : Memory} {lo : Nat} (a x : Nat) (b : Byte) (h : Memory.wfFrom lo m = true) :
    (m.set a b).get x = if a = x then b else m.get x := by
  induction m generalizing lo with
  | nil =>
    by_cases hb : b = 0#8
    · simp [Memory.set, Memory.get, hb]
    · simp [Memory.set, hb, get_cons, Memory.get]
  | cons y m ih =>
    obtain ⟨k, c⟩ := y
    obtain ⟨_, _, hm⟩ := (wfFrom_cons lo k c m).1 h
    have below : ∀ {z}, z < k + 1 → Memory.get m z = 0#8 := fun {z} hz => get_below hm hz
    rcases Nat.lt_trichotomy a k with h1 | h1 | h1
    · rw [set_before c b h1]
      by_cases hb : b = 0#8
      · rw [if_pos hb, get_cons]
        by_cases hx : a = x
        · rw [if_pos hx, if_neg (by omega), if_pos (by omega), hb]
        · rw [if_neg hx]
      · rw [if_neg hb, get_cons, get_cons]
        by_cases hx : a = x
        · rw [if_pos hx, if_pos hx]
        · rw [if_neg hx, if_neg hx]
          by_cases lt : x < a
          · rw [if_pos lt, if_neg (by omega), if_pos (by omega)]
          · rw [if_neg lt]
    · subst h1
      rw [set_here, get_cons]
      by_cases hb : b = 0#8
      · rw [if_pos hb]
        by_cases hx : a = x
        · rw [if_pos hx, hb, below (by omega)]
        · rw [if_neg hx, if_neg hx]
          by_cases lt : x < a
          · rw [if_pos lt, below (by omega)]
          · rw [if_neg lt]
      · rw [if_neg hb, get_cons]
        by_cases hx : a = x
        · rw [if_pos hx, if_pos hx]
        · rw [if_neg hx, if_neg hx, if_neg hx]
    · rw [set_after c b h1, get_cons, get_cons, ih hm]
      by_cases hx : a = x
      · rw [if_pos hx, if_neg (by omega), if_neg (by omega), if_pos hx]
      · rw [if_neg hx, if_neg hx]

/-- A byte read after a write of one byte. -/
theorem get_set_wf {m : Memory} (a x : Nat) (b : Byte) (h : m.wf = true) :
    (m.set a b).get x = if a = x then b else m.get x := get_set a x b h

/-- A byte outside a written range reads as before. -/
theorem get_write_out (bs : List Byte) : ∀ {m : Memory} (a x : Nat), m.wf = true → x < a ∨ a + bs.length ≤ x →
    (m.write a bs).get x = m.get x := by
  induction bs with
  | nil => intro m a x _ _; rfl
  | cons b bs ih =>
    intro m a x h hx
    simp only [List.length_cons] at hx
    have ne : ¬ a = x := by omega
    rw [Memory.write, ih (a + 1) x (wf_set a b h) (by omega), get_set_wf a x b h, if_neg ne]

/-- A byte inside a written range reads as written. -/
theorem get_write_in (bs : List Byte) : ∀ {m : Memory} (a i : Nat), m.wf = true → (hi : i < bs.length) →
    (m.write a bs).get (a + i) = bs[i] := by
  induction bs with
  | nil => intro m a i _ hi; simp at hi
  | cons b bs ih =>
    intro m a i h hi
    cases i with
    | zero =>
      rw [Memory.write, get_write_out bs (a + 1) (a + 0) (wf_set a b h) (by omega), get_set_wf a (a + 0) b h]
      simp
    | succ i =>
      have := ih (m := m.set a b) (a + 1) i (wf_set a b h) (by simpa using hi)
      rw [Memory.write, show a + (i + 1) = a + 1 + i by omega, this]
      simp

/-- Bytes read back where they were written. -/
theorem read_write_same (bs : List Byte) : ∀ {m : Memory} (a : Nat), m.wf = true →
    (m.write a bs).read a bs.length = bs := by
  have key : ∀ (n : Nat) (m : Memory) (a : Nat) (l : List Byte), l.length = n → (∀ i (hi : i < l.length), m.get (a + i) = l[i]) →
      m.read a n = l := by
    intro n
    induction n with
    | zero => intro m a l hl _; simp [Memory.read, List.eq_nil_of_length_eq_zero hl]
    | succ n ih =>
      intro m a l hl hg
      cases l with
      | nil => simp at hl
      | cons b l =>
        have h0 := hg 0 (by simp)
        have ht := ih m (a + 1) l (by simpa using hl) (fun i hi => by
          have := hg (i + 1) (by simpa using hi)
          rw [show a + 1 + i = a + (i + 1) by omega, this]
          simp)
        simp only [Nat.add_zero, List.getElem_cons_zero] at h0
        rw [Memory.read, ht, h0]
  intro m a h
  exact key bs.length _ a bs rfl (fun i hi => get_write_in bs a i h hi)

/-- A cleared range reads as zero, the rest as before. -/
theorem get_clear {m : Memory} (lo hi x : Nat) (h : m.wf = true) :
    (m.clear lo hi).get x = if lo ≤ x ∧ x < hi then 0 else m.get x := by
  have key : ∀ (m : Memory) (b : Nat), Memory.wfFrom b m = true →
      Memory.get (m.filter (fun c => c.1 < lo || hi ≤ c.1)) x = if lo ≤ x ∧ x < hi then 0 else m.get x := by
    intro m
    induction m with
    | nil => intro b _; simp [Memory.get]
    | cons y m ih =>
      obtain ⟨k, c⟩ := y
      intro b h
      obtain ⟨_, _, hm⟩ := (wfFrom_cons b k c m).1 h
      have ih := ih (k + 1) hm
      by_cases hk : k < lo ∨ hi ≤ k
      · rw [List.filter_cons_of_pos (by simpa using hk), get_cons, get_cons, ih]
        by_cases hx : k = x
        · rw [if_pos hx, if_neg (by omega), if_pos hx]
        · rw [if_neg hx, if_neg hx]
          by_cases lt : x < k
          · by_cases r : lo ≤ x ∧ x < hi
            · rw [if_pos lt, if_pos r]; rfl
            · rw [if_pos lt, if_neg r, if_pos lt]
          · rw [if_neg lt, if_neg lt]
      · rw [List.filter_cons_of_neg (by simpa using hk), get_cons, ih]
        by_cases r : lo ≤ x ∧ x < hi
        · rw [if_pos r, if_pos r]
        · rw [if_neg r, if_neg r, if_neg (by omega)]
          by_cases lt : x < k
          · rw [if_pos lt, get_below hm (by omega)]; rfl
          · rw [if_neg lt]
  exact key m 0 h

/-! ## Numbers and bytes -/

theorem toBytes_length (v n : Nat) : (toBytes v n).length = n := by
  induction n generalizing v with
  | zero => rfl
  | succ n ih => simp [toBytes, ih]

/-- Little-endian bytes give their number back. -/
theorem ofBytes_toBytes (n : Nat) : ∀ v : Nat, ofBytes (toBytes v n) = v % 256 ^ n := by
  induction n with
  | zero => intro v; simp [toBytes, ofBytes, Nat.mod_one]
  | succ n ih =>
    intro v
    simp only [toBytes, ofBytes, ih, BitVec.toNat_ofNat]
    rw [show (2 : Nat) ^ 8 = 256 from rfl, Nat.pow_succ, Nat.mul_comm (256 ^ n) 256, Nat.mod_mul]

/-- A number written with its bytes reads back. -/
theorem num_write {m : Memory} (a v n : Nat) (h : m.wf = true) : (m.write a (toBytes v n)).num a n = v % 256 ^ n := by
  have := read_write_same (toBytes v n) a h
  rw [toBytes_length] at this
  rw [Memory.num, this, ofBytes_toBytes]

end Sys2Proof.Laws
end

