-- ==== Sys2Proof/Laws/State.lean ====
section
/-! SUPPORT. What each named update of the state leaves as it was, and what reading the updated part gives: one lemma a
field for each update. -/

namespace Sys2Proof.Laws

open Sys2Proof.Machine

/-! ## Sparse lists -/

theorem look_nil {α : Type} (k : Nat) : look ([] : List (Nat × α)) k = none := rfl

theorem look_cons {α : Type} (j : Nat) (w : α) (l : List (Nat × α)) (k : Nat) :
    look ((j, w) :: l) k = if j = k then some w else look l k := by
  by_cases h : j = k <;> simp [look, h]

theorem look_put {α : Type} (l : List (Nat × α)) (k : Nat) (v : α) (j : Nat) :
    look (put l k v) j = if k = j then some v else look l j := by
  induction l with
  | nil => simp [put, look_cons, look_nil]
  | cons x l ih =>
    obtain ⟨i, w⟩ := x
    by_cases hi : i = k
    · subst hi
      by_cases hj : i = j <;> simp [put, look_cons, hj]
    · by_cases hj : k = j
      · subst hj; simp [put, hi, look_cons, ih]
      · simp [put, hi, look_cons, ih, hj]

@[simp] theorem lookD_put_same {α : Type} (l : List (Nat × α)) (k : Nat) (v d : α) : lookD (put l k v) k d = v := by
  simp [lookD, look_put]

theorem lookD_put_ne {α : Type} (l : List (Nat × α)) {k j : Nat} (v d : α) (h : k ≠ j) :
    lookD (put l k v) j d = lookD l j d := by
  simp [lookD, look_put, h]

theorem look_drop_same {α : Type} (l : List (Nat × α)) (k : Nat) : look (drop l k) k = none := by
  induction l with
  | nil => rfl
  | cons x l ih =>
    obtain ⟨i, w⟩ := x
    by_cases hi : i = k
    · simpa [drop, hi] using ih
    · simp only [drop, look] at ih ⊢
      simp [hi]

/-! ## Reading the updated part -/

@[simp] theorem core_setCore (s : State) (c : Nat) (k : Core) : (s.setCore c k).core c = k := by
  simp [State.core, State.setCore]
theorem core_setCore_ne (s : State) {c d : Nat} (k : Core) (h : c ≠ d) : (s.setCore c k).core d = s.core d := by
  simp [State.core, State.setCore, lookD_put_ne _ _ _ h]
@[simp] theorem core_modCore (s : State) (c : Nat) (f : Core → Core) : (s.modCore c f).core c = f (s.core c) := by
  simp [State.modCore]
theorem core_modCore_ne (s : State) {c d : Nat} (f : Core → Core) (h : c ≠ d) : (s.modCore c f).core d = s.core d :=
  core_setCore_ne s _ h
@[simp] theorem pair_setPair (s : State) (p : Nat) (k : Pair) : (s.setPair p k).pair p = k := by
  simp [State.pair, State.setPair]
theorem pair_setPair_ne (s : State) {p d : Nat} (k : Pair) (h : p ≠ d) : (s.setPair p k).pair d = s.pair d := by
  simp [State.pair, State.setPair, lookD_put_ne _ _ _ h]
@[simp] theorem pair_modPair (s : State) (p : Nat) (f : Pair → Pair) : (s.modPair p f).pair p = f (s.pair p) := by
  simp [State.modPair]
@[simp] theorem cluster_setCluster (s : State) (n : Nat) (k : Cluster) : (s.setCluster n k).cluster n = k := by
  simp [State.cluster, State.setCluster]
@[simp] theorem dome_setDome (s : State) (d : Nat) (k : Dome) : (s.setDome d k).dome d = k := by
  simp [State.dome, State.setDome]
@[simp] theorem dome_modDome (s : State) (d : Nat) (f : Dome → Dome) : (s.modDome d f).dome d = f (s.dome d) := by
  simp [State.modDome]
@[simp] theorem queue_setQueue (s : State) (q : Nat) (k : CmdQueue) : (s.setQueue q k).queue q = k := by
  simp [State.queue, State.setQueue]
@[simp] theorem queue_modQueue (s : State) (q : Nat) (f : CmdQueue → CmdQueue) : (s.modQueue q f).queue q = f (s.queue q) := by
  simp [State.modQueue]

/-- The thread that an agent names holds what is set there. -/
@[simp] theorem seq_setSeq (s : State) (a : Agent) (k : Seq) : (s.setSeq a k).seq a = k := by
  cases a <;> simp [State.setSeq, State.seq]
@[simp] theorem seq_modSeq (s : State) (a : Agent) (f : Seq → Seq) : (s.modSeq a f).seq a = f (s.seq a) := by
  simp [State.modSeq]

/-- The register queues of a sequencer as a map. -/
theorem entries_setEntries (k : Seq) (q r : QName) (l : List Entry) :
    (k.setEntries q l).entries r = if q = r then l else k.entries r := by
  have key : ∀ m : List (QName × List Entry),
      (match (putQ m q l).find? (fun x => x.1 == r) with | some x => x.2 | none => []) =
        if q = r then l else (match m.find? (fun x => x.1 == r) with | some x => x.2 | none => []) := by
    intro m
    induction m with
    | nil => by_cases h : q = r <;> simp [putQ, h]
    | cons x m ih =>
      obtain ⟨j, w⟩ := x
      by_cases hj : j = q
      · subst hj
        by_cases h : j = r <;> simp [putQ, h]
      · by_cases h : j = r
        · subst h
          have : ¬ q = j := fun e => hj e.symm
          simp [putQ, hj, this]
        · simp [putQ, hj, h, ih]
  exact key k.queues


/-! ## setCore -/

@[simp] theorem setCore_now (s : State) (c : Nat) (k : Core) : (s.setCore c k).now = s.now := rfl
@[simp] theorem setCore_timeBase (s : State) (c : Nat) (k : Core) : (s.setCore c k).timeBase = s.timeBase := rfl
@[simp] theorem setCore_turns (s : State) (c : Nat) (k : Core) : (s.setCore c k).turns = s.turns := rfl
@[simp] theorem setCore_agenda (s : State) (c : Nat) (k : Core) : (s.setCore c k).agenda = s.agenda := rfl
@[simp] theorem setCore_free (s : State) (c : Nat) (k : Core) : (s.setCore c k).free = s.free := rfl
@[simp] theorem setCore_nextId (s : State) (c : Nat) (k : Core) : (s.setCore c k).nextId = s.nextId := rfl
@[simp] theorem setCore_cur (s : State) (c : Nat) (k : Core) : (s.setCore c k).cur = s.cur := rfl
@[simp] theorem setCore_fw (s : State) (c : Nat) (k : Core) : (s.setCore c k).fw = s.fw := rfl
@[simp] theorem setCore_pairs (s : State) (c : Nat) (k : Core) : (s.setCore c k).pairs = s.pairs := rfl
@[simp] theorem setCore_clusters (s : State) (c : Nat) (k : Core) : (s.setCore c k).clusters = s.clusters := rfl
@[simp] theorem setCore_domes (s : State) (c : Nat) (k : Core) : (s.setCore c k).domes = s.domes := rfl
@[simp] theorem setCore_spireMon (s : State) (c : Nat) (k : Core) : (s.setCore c k).spireMon = s.spireMon := rfl
@[simp] theorem setCore_domeMon (s : State) (c : Nat) (k : Core) : (s.setCore c k).domeMon = s.domeMon := rfl
@[simp] theorem setCore_mem (s : State) (c : Nat) (k : Core) : (s.setCore c k).mem = s.mem := rfl
@[simp] theorem setCore_poison (s : State) (c : Nat) (k : Core) : (s.setCore c k).poison = s.poison := rfl
@[simp] theorem setCore_bad (s : State) (c : Nat) (k : Core) : (s.setCore c k).bad = s.bad := rfl
@[simp] theorem setCore_ptes (s : State) (c : Nat) (k : Core) : (s.setCore c k).ptes = s.ptes := rfl
@[simp] theorem setCore_reqs (s : State) (c : Nat) (k : Core) : (s.setCore c k).reqs = s.reqs := rfl
@[simp] theorem setCore_reps (s : State) (c : Nat) (k : Core) : (s.setCore c k).reps = s.reps := rfl
@[simp] theorem setCore_tops (s : State) (c : Nat) (k : Core) : (s.setCore c k).tops = s.tops := rfl
@[simp] theorem setCore_launches (s : State) (c : Nat) (k : Core) : (s.setCore c k).launches = s.launches := rfl
@[simp] theorem setCore_queues (s : State) (c : Nat) (k : Core) : (s.setCore c k).queues = s.queues := rfl
@[simp] theorem setCore_freezes (s : State) (c : Nat) (k : Core) : (s.setCore c k).freezes = s.freezes := rfl
@[simp] theorem setCore_notes (s : State) (c : Nat) (k : Core) : (s.setCore c k).notes = s.notes := rfl
@[simp] theorem setCore_irqs (s : State) (c : Nat) (k : Core) : (s.setCore c k).irqs = s.irqs := rfl
@[simp] theorem setCore_hostReads (s : State) (c : Nat) (k : Core) : (s.setCore c k).hostReads = s.hostReads := rfl
@[simp] theorem setCore_peerReps (s : State) (c : Nat) (k : Core) : (s.setCore c k).peerReps = s.peerReps := rfl
@[simp] theorem setCore_recalls (s : State) (c : Nat) (k : Core) : (s.setCore c k).recalls = s.recalls := rfl
@[simp] theorem setCore_contexts (s : State) (c : Nat) (k : Core) : (s.setCore c k).contexts = s.contexts := rfl
@[simp] theorem setCore_peerLeases (s : State) (c : Nat) (k : Core) : (s.setCore c k).peerLeases = s.peerLeases := rfl

/-! ## modCore -/

@[simp] theorem modCore_now (s : State) (c : Nat) (f : Core → Core) : (s.modCore c f).now = s.now := rfl
@[simp] theorem modCore_timeBase (s : State) (c : Nat) (f : Core → Core) : (s.modCore c f).timeBase = s.timeBase := rfl
@[simp] theorem modCore_turns (s : State) (c : Nat) (f : Core → Core) : (s.modCore c f).turns = s.turns := rfl
@[simp] theorem modCore_agenda (s : State) (c : Nat) (f : Core → Core) : (s.modCore c f).agenda = s.agenda := rfl
@[simp] theorem modCore_free (s : State) (c : Nat) (f : Core → Core) : (s.modCore c f).free = s.free := rfl
@[simp] theorem modCore_nextId (s : State) (c : Nat) (f : Core → Core) : (s.modCore c f).nextId = s.nextId := rfl
@[simp] theorem modCore_cur (s : State) (c : Nat) (f : Core → Core) : (s.modCore c f).cur = s.cur := rfl
@[simp] theorem modCore_fw (s : State) (c : Nat) (f : Core → Core) : (s.modCore c f).fw = s.fw := rfl
@[simp] theorem modCore_pairs (s : State) (c : Nat) (f : Core → Core) : (s.modCore c f).pairs = s.pairs := rfl
@[simp] theorem modCore_clusters (s : State) (c : Nat) (f : Core → Core) : (s.modCore c f).clusters = s.clusters := rfl
@[simp] theorem modCore_domes (s : State) (c : Nat) (f : Core → Core) : (s.modCore c f).domes = s.domes := rfl
@[simp] theorem modCore_spireMon (s : State) (c : Nat) (f : Core → Core) : (s.modCore c f).spireMon = s.spireMon := rfl
@[simp] theorem modCore_domeMon (s : State) (c : Nat) (f : Core → Core) : (s.modCore c f).domeMon = s.domeMon := rfl
@[simp] theorem modCore_mem (s : State) (c : Nat) (f : Core → Core) : (s.modCore c f).mem = s.mem := rfl
@[simp] theorem modCore_poison (s : State) (c : Nat) (f : Core → Core) : (s.modCore c f).poison = s.poison := rfl
@[simp] theorem modCore_bad (s : State) (c : Nat) (f : Core → Core) : (s.modCore c f).bad = s.bad := rfl
@[simp] theorem modCore_ptes (s : State) (c : Nat) (f : Core → Core) : (s.modCore c f).ptes = s.ptes := rfl
@[simp] theorem modCore_reqs (s : State) (c : Nat) (f : Core → Core) : (s.modCore c f).reqs = s.reqs := rfl
@[simp] theorem modCore_reps (s : State) (c : Nat) (f : Core → Core) : (s.modCore c f).reps = s.reps := rfl
@[simp] theorem modCore_tops (s : State) (c : Nat) (f : Core → Core) : (s.modCore c f).tops = s.tops := rfl
@[simp] theorem modCore_launches (s : State) (c : Nat) (f : Core → Core) : (s.modCore c f).launches = s.launches := rfl
@[simp] theorem modCore_queues (s : State) (c : Nat) (f : Core → Core) : (s.modCore c f).queues = s.queues := rfl
@[simp] theorem modCore_freezes (s : State) (c : Nat) (f : Core → Core) : (s.modCore c f).freezes = s.freezes := rfl
@[simp] theorem modCore_notes (s : State) (c : Nat) (f : Core → Core) : (s.modCore c f).notes = s.notes := rfl
@[simp] theorem modCore_irqs (s : State) (c : Nat) (f : Core → Core) : (s.modCore c f).irqs = s.irqs := rfl
@[simp] theorem modCore_hostReads (s : State) (c : Nat) (f : Core → Core) : (s.modCore c f).hostReads = s.hostReads := rfl
@[simp] theorem modCore_peerReps (s : State) (c : Nat) (f : Core → Core) : (s.modCore c f).peerReps = s.peerReps := rfl
@[simp] theorem modCore_recalls (s : State) (c : Nat) (f : Core → Core) : (s.modCore c f).recalls = s.recalls := rfl
@[simp] theorem modCore_contexts (s : State) (c : Nat) (f : Core → Core) : (s.modCore c f).contexts = s.contexts := rfl
@[simp] theorem modCore_peerLeases (s : State) (c : Nat) (f : Core → Core) : (s.modCore c f).peerLeases = s.peerLeases := rfl

/-! ## setPair -/

@[simp] theorem setPair_now (s : State) (p : Nat) (k : Pair) : (s.setPair p k).now = s.now := rfl
@[simp] theorem setPair_timeBase (s : State) (p : Nat) (k : Pair) : (s.setPair p k).timeBase = s.timeBase := rfl
@[simp] theorem setPair_turns (s : State) (p : Nat) (k : Pair) : (s.setPair p k).turns = s.turns := rfl
@[simp] theorem setPair_agenda (s : State) (p : Nat) (k : Pair) : (s.setPair p k).agenda = s.agenda := rfl
@[simp] theorem setPair_free (s : State) (p : Nat) (k : Pair) : (s.setPair p k).free = s.free := rfl
@[simp] theorem setPair_nextId (s : State) (p : Nat) (k : Pair) : (s.setPair p k).nextId = s.nextId := rfl
@[simp] theorem setPair_cur (s : State) (p : Nat) (k : Pair) : (s.setPair p k).cur = s.cur := rfl
@[simp] theorem setPair_fw (s : State) (p : Nat) (k : Pair) : (s.setPair p k).fw = s.fw := rfl
@[simp] theorem setPair_cores (s : State) (p : Nat) (k : Pair) : (s.setPair p k).cores = s.cores := rfl
@[simp] theorem setPair_clusters (s : State) (p : Nat) (k : Pair) : (s.setPair p k).clusters = s.clusters := rfl
@[simp] theorem setPair_domes (s : State) (p : Nat) (k : Pair) : (s.setPair p k).domes = s.domes := rfl
@[simp] theorem setPair_spireMon (s : State) (p : Nat) (k : Pair) : (s.setPair p k).spireMon = s.spireMon := rfl
@[simp] theorem setPair_domeMon (s : State) (p : Nat) (k : Pair) : (s.setPair p k).domeMon = s.domeMon := rfl
@[simp] theorem setPair_mem (s : State) (p : Nat) (k : Pair) : (s.setPair p k).mem = s.mem := rfl
@[simp] theorem setPair_poison (s : State) (p : Nat) (k : Pair) : (s.setPair p k).poison = s.poison := rfl
@[simp] theorem setPair_bad (s : State) (p : Nat) (k : Pair) : (s.setPair p k).bad = s.bad := rfl
@[simp] theorem setPair_ptes (s : State) (p : Nat) (k : Pair) : (s.setPair p k).ptes = s.ptes := rfl
@[simp] theorem setPair_reqs (s : State) (p : Nat) (k : Pair) : (s.setPair p k).reqs = s.reqs := rfl
@[simp] theorem setPair_reps (s : State) (p : Nat) (k : Pair) : (s.setPair p k).reps = s.reps := rfl
@[simp] theorem setPair_tops (s : State) (p : Nat) (k : Pair) : (s.setPair p k).tops = s.tops := rfl
@[simp] theorem setPair_launches (s : State) (p : Nat) (k : Pair) : (s.setPair p k).launches = s.launches := rfl
@[simp] theorem setPair_queues (s : State) (p : Nat) (k : Pair) : (s.setPair p k).queues = s.queues := rfl
@[simp] theorem setPair_freezes (s : State) (p : Nat) (k : Pair) : (s.setPair p k).freezes = s.freezes := rfl
@[simp] theorem setPair_notes (s : State) (p : Nat) (k : Pair) : (s.setPair p k).notes = s.notes := rfl
@[simp] theorem setPair_irqs (s : State) (p : Nat) (k : Pair) : (s.setPair p k).irqs = s.irqs := rfl
@[simp] theorem setPair_hostReads (s : State) (p : Nat) (k : Pair) : (s.setPair p k).hostReads = s.hostReads := rfl
@[simp] theorem setPair_peerReps (s : State) (p : Nat) (k : Pair) : (s.setPair p k).peerReps = s.peerReps := rfl
@[simp] theorem setPair_recalls (s : State) (p : Nat) (k : Pair) : (s.setPair p k).recalls = s.recalls := rfl
@[simp] theorem setPair_contexts (s : State) (p : Nat) (k : Pair) : (s.setPair p k).contexts = s.contexts := rfl
@[simp] theorem setPair_peerLeases (s : State) (p : Nat) (k : Pair) : (s.setPair p k).peerLeases = s.peerLeases := rfl

/-! ## modPair -/

@[simp] theorem modPair_now (s : State) (p : Nat) (f : Pair → Pair) : (s.modPair p f).now = s.now := rfl
@[simp] theorem modPair_timeBase (s : State) (p : Nat) (f : Pair → Pair) : (s.modPair p f).timeBase = s.timeBase := rfl
@[simp] theorem modPair_turns (s : State) (p : Nat) (f : Pair → Pair) : (s.modPair p f).turns = s.turns := rfl
@[simp] theorem modPair_agenda (s : State) (p : Nat) (f : Pair → Pair) : (s.modPair p f).agenda = s.agenda := rfl
@[simp] theorem modPair_free (s : State) (p : Nat) (f : Pair → Pair) : (s.modPair p f).free = s.free := rfl
@[simp] theorem modPair_nextId (s : State) (p : Nat) (f : Pair → Pair) : (s.modPair p f).nextId = s.nextId := rfl
@[simp] theorem modPair_cur (s : State) (p : Nat) (f : Pair → Pair) : (s.modPair p f).cur = s.cur := rfl
@[simp] theorem modPair_fw (s : State) (p : Nat) (f : Pair → Pair) : (s.modPair p f).fw = s.fw := rfl
@[simp] theorem modPair_cores (s : State) (p : Nat) (f : Pair → Pair) : (s.modPair p f).cores = s.cores := rfl
@[simp] theorem modPair_clusters (s : State) (p : Nat) (f : Pair → Pair) : (s.modPair p f).clusters = s.clusters := rfl
@[simp] theorem modPair_domes (s : State) (p : Nat) (f : Pair → Pair) : (s.modPair p f).domes = s.domes := rfl
@[simp] theorem modPair_spireMon (s : State) (p : Nat) (f : Pair → Pair) : (s.modPair p f).spireMon = s.spireMon := rfl
@[simp] theorem modPair_domeMon (s : State) (p : Nat) (f : Pair → Pair) : (s.modPair p f).domeMon = s.domeMon := rfl
@[simp] theorem modPair_mem (s : State) (p : Nat) (f : Pair → Pair) : (s.modPair p f).mem = s.mem := rfl
@[simp] theorem modPair_poison (s : State) (p : Nat) (f : Pair → Pair) : (s.modPair p f).poison = s.poison := rfl
@[simp] theorem modPair_bad (s : State) (p : Nat) (f : Pair → Pair) : (s.modPair p f).bad = s.bad := rfl
@[simp] theorem modPair_ptes (s : State) (p : Nat) (f : Pair → Pair) : (s.modPair p f).ptes = s.ptes := rfl
@[simp] theorem modPair_reqs (s : State) (p : Nat) (f : Pair → Pair) : (s.modPair p f).reqs = s.reqs := rfl
@[simp] theorem modPair_reps (s : State) (p : Nat) (f : Pair → Pair) : (s.modPair p f).reps = s.reps := rfl
@[simp] theorem modPair_tops (s : State) (p : Nat) (f : Pair → Pair) : (s.modPair p f).tops = s.tops := rfl
@[simp] theorem modPair_launches (s : State) (p : Nat) (f : Pair → Pair) : (s.modPair p f).launches = s.launches := rfl
@[simp] theorem modPair_queues (s : State) (p : Nat) (f : Pair → Pair) : (s.modPair p f).queues = s.queues := rfl
@[simp] theorem modPair_freezes (s : State) (p : Nat) (f : Pair → Pair) : (s.modPair p f).freezes = s.freezes := rfl
@[simp] theorem modPair_notes (s : State) (p : Nat) (f : Pair → Pair) : (s.modPair p f).notes = s.notes := rfl
@[simp] theorem modPair_irqs (s : State) (p : Nat) (f : Pair → Pair) : (s.modPair p f).irqs = s.irqs := rfl
@[simp] theorem modPair_hostReads (s : State) (p : Nat) (f : Pair → Pair) : (s.modPair p f).hostReads = s.hostReads := rfl
@[simp] theorem modPair_peerReps (s : State) (p : Nat) (f : Pair → Pair) : (s.modPair p f).peerReps = s.peerReps := rfl
@[simp] theorem modPair_recalls (s : State) (p : Nat) (f : Pair → Pair) : (s.modPair p f).recalls = s.recalls := rfl
@[simp] theorem modPair_contexts (s : State) (p : Nat) (f : Pair → Pair) : (s.modPair p f).contexts = s.contexts := rfl
@[simp] theorem modPair_peerLeases (s : State) (p : Nat) (f : Pair → Pair) : (s.modPair p f).peerLeases = s.peerLeases := rfl

/-! ## setCluster -/

@[simp] theorem setCluster_now (s : State) (n : Nat) (k : Cluster) : (s.setCluster n k).now = s.now := rfl
@[simp] theorem setCluster_timeBase (s : State) (n : Nat) (k : Cluster) : (s.setCluster n k).timeBase = s.timeBase := rfl
@[simp] theorem setCluster_turns (s : State) (n : Nat) (k : Cluster) : (s.setCluster n k).turns = s.turns := rfl
@[simp] theorem setCluster_agenda (s : State) (n : Nat) (k : Cluster) : (s.setCluster n k).agenda = s.agenda := rfl
@[simp] theorem setCluster_free (s : State) (n : Nat) (k : Cluster) : (s.setCluster n k).free = s.free := rfl
@[simp] theorem setCluster_nextId (s : State) (n : Nat) (k : Cluster) : (s.setCluster n k).nextId = s.nextId := rfl
@[simp] theorem setCluster_cur (s : State) (n : Nat) (k : Cluster) : (s.setCluster n k).cur = s.cur := rfl
@[simp] theorem setCluster_fw (s : State) (n : Nat) (k : Cluster) : (s.setCluster n k).fw = s.fw := rfl
@[simp] theorem setCluster_cores (s : State) (n : Nat) (k : Cluster) : (s.setCluster n k).cores = s.cores := rfl
@[simp] theorem setCluster_pairs (s : State) (n : Nat) (k : Cluster) : (s.setCluster n k).pairs = s.pairs := rfl
@[simp] theorem setCluster_domes (s : State) (n : Nat) (k : Cluster) : (s.setCluster n k).domes = s.domes := rfl
@[simp] theorem setCluster_spireMon (s : State) (n : Nat) (k : Cluster) : (s.setCluster n k).spireMon = s.spireMon := rfl
@[simp] theorem setCluster_domeMon (s : State) (n : Nat) (k : Cluster) : (s.setCluster n k).domeMon = s.domeMon := rfl
@[simp] theorem setCluster_mem (s : State) (n : Nat) (k : Cluster) : (s.setCluster n k).mem = s.mem := rfl
@[simp] theorem setCluster_poison (s : State) (n : Nat) (k : Cluster) : (s.setCluster n k).poison = s.poison := rfl
@[simp] theorem setCluster_bad (s : State) (n : Nat) (k : Cluster) : (s.setCluster n k).bad = s.bad := rfl
@[simp] theorem setCluster_ptes (s : State) (n : Nat) (k : Cluster) : (s.setCluster n k).ptes = s.ptes := rfl
@[simp] theorem setCluster_reqs (s : State) (n : Nat) (k : Cluster) : (s.setCluster n k).reqs = s.reqs := rfl
@[simp] theorem setCluster_reps (s : State) (n : Nat) (k : Cluster) : (s.setCluster n k).reps = s.reps := rfl
@[simp] theorem setCluster_tops (s : State) (n : Nat) (k : Cluster) : (s.setCluster n k).tops = s.tops := rfl
@[simp] theorem setCluster_launches (s : State) (n : Nat) (k : Cluster) : (s.setCluster n k).launches = s.launches := rfl
@[simp] theorem setCluster_queues (s : State) (n : Nat) (k : Cluster) : (s.setCluster n k).queues = s.queues := rfl
@[simp] theorem setCluster_freezes (s : State) (n : Nat) (k : Cluster) : (s.setCluster n k).freezes = s.freezes := rfl
@[simp] theorem setCluster_notes (s : State) (n : Nat) (k : Cluster) : (s.setCluster n k).notes = s.notes := rfl
@[simp] theorem setCluster_irqs (s : State) (n : Nat) (k : Cluster) : (s.setCluster n k).irqs = s.irqs := rfl
@[simp] theorem setCluster_hostReads (s : State) (n : Nat) (k : Cluster) : (s.setCluster n k).hostReads = s.hostReads := rfl
@[simp] theorem setCluster_peerReps (s : State) (n : Nat) (k : Cluster) : (s.setCluster n k).peerReps = s.peerReps := rfl
@[simp] theorem setCluster_recalls (s : State) (n : Nat) (k : Cluster) : (s.setCluster n k).recalls = s.recalls := rfl
@[simp] theorem setCluster_contexts (s : State) (n : Nat) (k : Cluster) : (s.setCluster n k).contexts = s.contexts := rfl
@[simp] theorem setCluster_peerLeases (s : State) (n : Nat) (k : Cluster) : (s.setCluster n k).peerLeases = s.peerLeases := rfl

/-! ## setDome -/

@[simp] theorem setDome_now (s : State) (d : Nat) (k : Dome) : (s.setDome d k).now = s.now := rfl
@[simp] theorem setDome_timeBase (s : State) (d : Nat) (k : Dome) : (s.setDome d k).timeBase = s.timeBase := rfl
@[simp] theorem setDome_turns (s : State) (d : Nat) (k : Dome) : (s.setDome d k).turns = s.turns := rfl
@[simp] theorem setDome_agenda (s : State) (d : Nat) (k : Dome) : (s.setDome d k).agenda = s.agenda := rfl
@[simp] theorem setDome_free (s : State) (d : Nat) (k : Dome) : (s.setDome d k).free = s.free := rfl
@[simp] theorem setDome_nextId (s : State) (d : Nat) (k : Dome) : (s.setDome d k).nextId = s.nextId := rfl
@[simp] theorem setDome_cur (s : State) (d : Nat) (k : Dome) : (s.setDome d k).cur = s.cur := rfl
@[simp] theorem setDome_fw (s : State) (d : Nat) (k : Dome) : (s.setDome d k).fw = s.fw := rfl
@[simp] theorem setDome_cores (s : State) (d : Nat) (k : Dome) : (s.setDome d k).cores = s.cores := rfl
@[simp] theorem setDome_pairs (s : State) (d : Nat) (k : Dome) : (s.setDome d k).pairs = s.pairs := rfl
@[simp] theorem setDome_clusters (s : State) (d : Nat) (k : Dome) : (s.setDome d k).clusters = s.clusters := rfl
@[simp] theorem setDome_spireMon (s : State) (d : Nat) (k : Dome) : (s.setDome d k).spireMon = s.spireMon := rfl
@[simp] theorem setDome_domeMon (s : State) (d : Nat) (k : Dome) : (s.setDome d k).domeMon = s.domeMon := rfl
@[simp] theorem setDome_mem (s : State) (d : Nat) (k : Dome) : (s.setDome d k).mem = s.mem := rfl
@[simp] theorem setDome_poison (s : State) (d : Nat) (k : Dome) : (s.setDome d k).poison = s.poison := rfl
@[simp] theorem setDome_bad (s : State) (d : Nat) (k : Dome) : (s.setDome d k).bad = s.bad := rfl
@[simp] theorem setDome_ptes (s : State) (d : Nat) (k : Dome) : (s.setDome d k).ptes = s.ptes := rfl
@[simp] theorem setDome_reqs (s : State) (d : Nat) (k : Dome) : (s.setDome d k).reqs = s.reqs := rfl
@[simp] theorem setDome_reps (s : State) (d : Nat) (k : Dome) : (s.setDome d k).reps = s.reps := rfl
@[simp] theorem setDome_tops (s : State) (d : Nat) (k : Dome) : (s.setDome d k).tops = s.tops := rfl
@[simp] theorem setDome_launches (s : State) (d : Nat) (k : Dome) : (s.setDome d k).launches = s.launches := rfl
@[simp] theorem setDome_queues (s : State) (d : Nat) (k : Dome) : (s.setDome d k).queues = s.queues := rfl
@[simp] theorem setDome_freezes (s : State) (d : Nat) (k : Dome) : (s.setDome d k).freezes = s.freezes := rfl
@[simp] theorem setDome_notes (s : State) (d : Nat) (k : Dome) : (s.setDome d k).notes = s.notes := rfl
@[simp] theorem setDome_irqs (s : State) (d : Nat) (k : Dome) : (s.setDome d k).irqs = s.irqs := rfl
@[simp] theorem setDome_hostReads (s : State) (d : Nat) (k : Dome) : (s.setDome d k).hostReads = s.hostReads := rfl
@[simp] theorem setDome_peerReps (s : State) (d : Nat) (k : Dome) : (s.setDome d k).peerReps = s.peerReps := rfl
@[simp] theorem setDome_recalls (s : State) (d : Nat) (k : Dome) : (s.setDome d k).recalls = s.recalls := rfl
@[simp] theorem setDome_contexts (s : State) (d : Nat) (k : Dome) : (s.setDome d k).contexts = s.contexts := rfl
@[simp] theorem setDome_peerLeases (s : State) (d : Nat) (k : Dome) : (s.setDome d k).peerLeases = s.peerLeases := rfl

/-! ## modDome -/

@[simp] theorem modDome_now (s : State) (d : Nat) (f : Dome → Dome) : (s.modDome d f).now = s.now := rfl
@[simp] theorem modDome_timeBase (s : State) (d : Nat) (f : Dome → Dome) : (s.modDome d f).timeBase = s.timeBase := rfl
@[simp] theorem modDome_turns (s : State) (d : Nat) (f : Dome → Dome) : (s.modDome d f).turns = s.turns := rfl
@[simp] theorem modDome_agenda (s : State) (d : Nat) (f : Dome → Dome) : (s.modDome d f).agenda = s.agenda := rfl
@[simp] theorem modDome_free (s : State) (d : Nat) (f : Dome → Dome) : (s.modDome d f).free = s.free := rfl
@[simp] theorem modDome_nextId (s : State) (d : Nat) (f : Dome → Dome) : (s.modDome d f).nextId = s.nextId := rfl
@[simp] theorem modDome_cur (s : State) (d : Nat) (f : Dome → Dome) : (s.modDome d f).cur = s.cur := rfl
@[simp] theorem modDome_fw (s : State) (d : Nat) (f : Dome → Dome) : (s.modDome d f).fw = s.fw := rfl
@[simp] theorem modDome_cores (s : State) (d : Nat) (f : Dome → Dome) : (s.modDome d f).cores = s.cores := rfl
@[simp] theorem modDome_pairs (s : State) (d : Nat) (f : Dome → Dome) : (s.modDome d f).pairs = s.pairs := rfl
@[simp] theorem modDome_clusters (s : State) (d : Nat) (f : Dome → Dome) : (s.modDome d f).clusters = s.clusters := rfl
@[simp] theorem modDome_spireMon (s : State) (d : Nat) (f : Dome → Dome) : (s.modDome d f).spireMon = s.spireMon := rfl
@[simp] theorem modDome_domeMon (s : State) (d : Nat) (f : Dome → Dome) : (s.modDome d f).domeMon = s.domeMon := rfl
@[simp] theorem modDome_mem (s : State) (d : Nat) (f : Dome → Dome) : (s.modDome d f).mem = s.mem := rfl
@[simp] theorem modDome_poison (s : State) (d : Nat) (f : Dome → Dome) : (s.modDome d f).poison = s.poison := rfl
@[simp] theorem modDome_bad (s : State) (d : Nat) (f : Dome → Dome) : (s.modDome d f).bad = s.bad := rfl
@[simp] theorem modDome_ptes (s : State) (d : Nat) (f : Dome → Dome) : (s.modDome d f).ptes = s.ptes := rfl
@[simp] theorem modDome_reqs (s : State) (d : Nat) (f : Dome → Dome) : (s.modDome d f).reqs = s.reqs := rfl
@[simp] theorem modDome_reps (s : State) (d : Nat) (f : Dome → Dome) : (s.modDome d f).reps = s.reps := rfl
@[simp] theorem modDome_tops (s : State) (d : Nat) (f : Dome → Dome) : (s.modDome d f).tops = s.tops := rfl
@[simp] theorem modDome_launches (s : State) (d : Nat) (f : Dome → Dome) : (s.modDome d f).launches = s.launches := rfl
@[simp] theorem modDome_queues (s : State) (d : Nat) (f : Dome → Dome) : (s.modDome d f).queues = s.queues := rfl
@[simp] theorem modDome_freezes (s : State) (d : Nat) (f : Dome → Dome) : (s.modDome d f).freezes = s.freezes := rfl
@[simp] theorem modDome_notes (s : State) (d : Nat) (f : Dome → Dome) : (s.modDome d f).notes = s.notes := rfl
@[simp] theorem modDome_irqs (s : State) (d : Nat) (f : Dome → Dome) : (s.modDome d f).irqs = s.irqs := rfl
@[simp] theorem modDome_hostReads (s : State) (d : Nat) (f : Dome → Dome) : (s.modDome d f).hostReads = s.hostReads := rfl
@[simp] theorem modDome_peerReps (s : State) (d : Nat) (f : Dome → Dome) : (s.modDome d f).peerReps = s.peerReps := rfl
@[simp] theorem modDome_recalls (s : State) (d : Nat) (f : Dome → Dome) : (s.modDome d f).recalls = s.recalls := rfl
@[simp] theorem modDome_contexts (s : State) (d : Nat) (f : Dome → Dome) : (s.modDome d f).contexts = s.contexts := rfl
@[simp] theorem modDome_peerLeases (s : State) (d : Nat) (f : Dome → Dome) : (s.modDome d f).peerLeases = s.peerLeases := rfl

/-! ## setQueue -/

@[simp] theorem setQueue_now (s : State) (q : Nat) (k : CmdQueue) : (s.setQueue q k).now = s.now := rfl
@[simp] theorem setQueue_timeBase (s : State) (q : Nat) (k : CmdQueue) : (s.setQueue q k).timeBase = s.timeBase := rfl
@[simp] theorem setQueue_turns (s : State) (q : Nat) (k : CmdQueue) : (s.setQueue q k).turns = s.turns := rfl
@[simp] theorem setQueue_agenda (s : State) (q : Nat) (k : CmdQueue) : (s.setQueue q k).agenda = s.agenda := rfl
@[simp] theorem setQueue_free (s : State) (q : Nat) (k : CmdQueue) : (s.setQueue q k).free = s.free := rfl
@[simp] theorem setQueue_nextId (s : State) (q : Nat) (k : CmdQueue) : (s.setQueue q k).nextId = s.nextId := rfl
@[simp] theorem setQueue_cur (s : State) (q : Nat) (k : CmdQueue) : (s.setQueue q k).cur = s.cur := rfl
@[simp] theorem setQueue_fw (s : State) (q : Nat) (k : CmdQueue) : (s.setQueue q k).fw = s.fw := rfl
@[simp] theorem setQueue_cores (s : State) (q : Nat) (k : CmdQueue) : (s.setQueue q k).cores = s.cores := rfl
@[simp] theorem setQueue_pairs (s : State) (q : Nat) (k : CmdQueue) : (s.setQueue q k).pairs = s.pairs := rfl
@[simp] theorem setQueue_clusters (s : State) (q : Nat) (k : CmdQueue) : (s.setQueue q k).clusters = s.clusters := rfl
@[simp] theorem setQueue_domes (s : State) (q : Nat) (k : CmdQueue) : (s.setQueue q k).domes = s.domes := rfl
@[simp] theorem setQueue_spireMon (s : State) (q : Nat) (k : CmdQueue) : (s.setQueue q k).spireMon = s.spireMon := rfl
@[simp] theorem setQueue_domeMon (s : State) (q : Nat) (k : CmdQueue) : (s.setQueue q k).domeMon = s.domeMon := rfl
@[simp] theorem setQueue_mem (s : State) (q : Nat) (k : CmdQueue) : (s.setQueue q k).mem = s.mem := rfl
@[simp] theorem setQueue_poison (s : State) (q : Nat) (k : CmdQueue) : (s.setQueue q k).poison = s.poison := rfl
@[simp] theorem setQueue_bad (s : State) (q : Nat) (k : CmdQueue) : (s.setQueue q k).bad = s.bad := rfl
@[simp] theorem setQueue_ptes (s : State) (q : Nat) (k : CmdQueue) : (s.setQueue q k).ptes = s.ptes := rfl
@[simp] theorem setQueue_reqs (s : State) (q : Nat) (k : CmdQueue) : (s.setQueue q k).reqs = s.reqs := rfl
@[simp] theorem setQueue_reps (s : State) (q : Nat) (k : CmdQueue) : (s.setQueue q k).reps = s.reps := rfl
@[simp] theorem setQueue_tops (s : State) (q : Nat) (k : CmdQueue) : (s.setQueue q k).tops = s.tops := rfl
@[simp] theorem setQueue_launches (s : State) (q : Nat) (k : CmdQueue) : (s.setQueue q k).launches = s.launches := rfl
@[simp] theorem setQueue_freezes (s : State) (q : Nat) (k : CmdQueue) : (s.setQueue q k).freezes = s.freezes := rfl
@[simp] theorem setQueue_notes (s : State) (q : Nat) (k : CmdQueue) : (s.setQueue q k).notes = s.notes := rfl
@[simp] theorem setQueue_irqs (s : State) (q : Nat) (k : CmdQueue) : (s.setQueue q k).irqs = s.irqs := rfl
@[simp] theorem setQueue_hostReads (s : State) (q : Nat) (k : CmdQueue) : (s.setQueue q k).hostReads = s.hostReads := rfl
@[simp] theorem setQueue_peerReps (s : State) (q : Nat) (k : CmdQueue) : (s.setQueue q k).peerReps = s.peerReps := rfl
@[simp] theorem setQueue_recalls (s : State) (q : Nat) (k : CmdQueue) : (s.setQueue q k).recalls = s.recalls := rfl
@[simp] theorem setQueue_contexts (s : State) (q : Nat) (k : CmdQueue) : (s.setQueue q k).contexts = s.contexts := rfl
@[simp] theorem setQueue_peerLeases (s : State) (q : Nat) (k : CmdQueue) : (s.setQueue q k).peerLeases = s.peerLeases := rfl

/-! ## modQueue -/

@[simp] theorem modQueue_now (s : State) (q : Nat) (f : CmdQueue → CmdQueue) : (s.modQueue q f).now = s.now := rfl
@[simp] theorem modQueue_timeBase (s : State) (q : Nat) (f : CmdQueue → CmdQueue) : (s.modQueue q f).timeBase = s.timeBase := rfl
@[simp] theorem modQueue_turns (s : State) (q : Nat) (f : CmdQueue → CmdQueue) : (s.modQueue q f).turns = s.turns := rfl
@[simp] theorem modQueue_agenda (s : State) (q : Nat) (f : CmdQueue → CmdQueue) : (s.modQueue q f).agenda = s.agenda := rfl
@[simp] theorem modQueue_free (s : State) (q : Nat) (f : CmdQueue → CmdQueue) : (s.modQueue q f).free = s.free := rfl
@[simp] theorem modQueue_nextId (s : State) (q : Nat) (f : CmdQueue → CmdQueue) : (s.modQueue q f).nextId = s.nextId := rfl
@[simp] theorem modQueue_cur (s : State) (q : Nat) (f : CmdQueue → CmdQueue) : (s.modQueue q f).cur = s.cur := rfl
@[simp] theorem modQueue_fw (s : State) (q : Nat) (f : CmdQueue → CmdQueue) : (s.modQueue q f).fw = s.fw := rfl
@[simp] theorem modQueue_cores (s : State) (q : Nat) (f : CmdQueue → CmdQueue) : (s.modQueue q f).cores = s.cores := rfl
@[simp] theorem modQueue_pairs (s : State) (q : Nat) (f : CmdQueue → CmdQueue) : (s.modQueue q f).pairs = s.pairs := rfl
@[simp] theorem modQueue_clusters (s : State) (q : Nat) (f : CmdQueue → CmdQueue) : (s.modQueue q f).clusters = s.clusters := rfl
@[simp] theorem modQueue_domes (s : State) (q : Nat) (f : CmdQueue → CmdQueue) : (s.modQueue q f).domes = s.domes := rfl
@[simp] theorem modQueue_spireMon (s : State) (q : Nat) (f : CmdQueue → CmdQueue) : (s.modQueue q f).spireMon = s.spireMon := rfl
@[simp] theorem modQueue_domeMon (s : State) (q : Nat) (f : CmdQueue → CmdQueue) : (s.modQueue q f).domeMon = s.domeMon := rfl
@[simp] theorem modQueue_mem (s : State) (q : Nat) (f : CmdQueue → CmdQueue) : (s.modQueue q f).mem = s.mem := rfl
@[simp] theorem modQueue_poison (s : State) (q : Nat) (f : CmdQueue → CmdQueue) : (s.modQueue q f).poison = s.poison := rfl
@[simp] theorem modQueue_bad (s : State) (q : Nat) (f : CmdQueue → CmdQueue) : (s.modQueue q f).bad = s.bad := rfl
@[simp] theorem modQueue_ptes (s : State) (q : Nat) (f : CmdQueue → CmdQueue) : (s.modQueue q f).ptes = s.ptes := rfl
@[simp] theorem modQueue_reqs (s : State) (q : Nat) (f : CmdQueue → CmdQueue) : (s.modQueue q f).reqs = s.reqs := rfl
@[simp] theorem modQueue_reps (s : State) (q : Nat) (f : CmdQueue → CmdQueue) : (s.modQueue q f).reps = s.reps := rfl
@[simp] theorem modQueue_tops (s : State) (q : Nat) (f : CmdQueue → CmdQueue) : (s.modQueue q f).tops = s.tops := rfl
@[simp] theorem modQueue_launches (s : State) (q : Nat) (f : CmdQueue → CmdQueue) : (s.modQueue q f).launches = s.launches := rfl
@[simp] theorem modQueue_freezes (s : State) (q : Nat) (f : CmdQueue → CmdQueue) : (s.modQueue q f).freezes = s.freezes := rfl
@[simp] theorem modQueue_notes (s : State) (q : Nat) (f : CmdQueue → CmdQueue) : (s.modQueue q f).notes = s.notes := rfl
@[simp] theorem modQueue_irqs (s : State) (q : Nat) (f : CmdQueue → CmdQueue) : (s.modQueue q f).irqs = s.irqs := rfl
@[simp] theorem modQueue_hostReads (s : State) (q : Nat) (f : CmdQueue → CmdQueue) : (s.modQueue q f).hostReads = s.hostReads := rfl
@[simp] theorem modQueue_peerReps (s : State) (q : Nat) (f : CmdQueue → CmdQueue) : (s.modQueue q f).peerReps = s.peerReps := rfl
@[simp] theorem modQueue_recalls (s : State) (q : Nat) (f : CmdQueue → CmdQueue) : (s.modQueue q f).recalls = s.recalls := rfl
@[simp] theorem modQueue_contexts (s : State) (q : Nat) (f : CmdQueue → CmdQueue) : (s.modQueue q f).contexts = s.contexts := rfl
@[simp] theorem modQueue_peerLeases (s : State) (q : Nat) (f : CmdQueue → CmdQueue) : (s.modQueue q f).peerLeases = s.peerLeases := rfl

/-! ## setSeq -/

@[simp] theorem setSeq_now (s : State) (a : Agent) (k : Seq) : (s.setSeq a k).now = s.now := by cases a <;> rfl
@[simp] theorem setSeq_timeBase (s : State) (a : Agent) (k : Seq) : (s.setSeq a k).timeBase = s.timeBase := by cases a <;> rfl
@[simp] theorem setSeq_turns (s : State) (a : Agent) (k : Seq) : (s.setSeq a k).turns = s.turns := by cases a <;> rfl
@[simp] theorem setSeq_agenda (s : State) (a : Agent) (k : Seq) : (s.setSeq a k).agenda = s.agenda := by cases a <;> rfl
@[simp] theorem setSeq_free (s : State) (a : Agent) (k : Seq) : (s.setSeq a k).free = s.free := by cases a <;> rfl
@[simp] theorem setSeq_nextId (s : State) (a : Agent) (k : Seq) : (s.setSeq a k).nextId = s.nextId := by cases a <;> rfl
@[simp] theorem setSeq_cur (s : State) (a : Agent) (k : Seq) : (s.setSeq a k).cur = s.cur := by cases a <;> rfl
@[simp] theorem setSeq_fw (s : State) (a : Agent) (k : Seq) : (s.setSeq a k).fw = s.fw := by cases a <;> rfl
@[simp] theorem setSeq_clusters (s : State) (a : Agent) (k : Seq) : (s.setSeq a k).clusters = s.clusters := by cases a <;> rfl
@[simp] theorem setSeq_domes (s : State) (a : Agent) (k : Seq) : (s.setSeq a k).domes = s.domes := by cases a <;> rfl
@[simp] theorem setSeq_spireMon (s : State) (a : Agent) (k : Seq) : (s.setSeq a k).spireMon = s.spireMon := by cases a <;> rfl
@[simp] theorem setSeq_domeMon (s : State) (a : Agent) (k : Seq) : (s.setSeq a k).domeMon = s.domeMon := by cases a <;> rfl
@[simp] theorem setSeq_mem (s : State) (a : Agent) (k : Seq) : (s.setSeq a k).mem = s.mem := by cases a <;> rfl
@[simp] theorem setSeq_poison (s : State) (a : Agent) (k : Seq) : (s.setSeq a k).poison = s.poison := by cases a <;> rfl
@[simp] theorem setSeq_bad (s : State) (a : Agent) (k : Seq) : (s.setSeq a k).bad = s.bad := by cases a <;> rfl
@[simp] theorem setSeq_ptes (s : State) (a : Agent) (k : Seq) : (s.setSeq a k).ptes = s.ptes := by cases a <;> rfl
@[simp] theorem setSeq_reqs (s : State) (a : Agent) (k : Seq) : (s.setSeq a k).reqs = s.reqs := by cases a <;> rfl
@[simp] theorem setSeq_reps (s : State) (a : Agent) (k : Seq) : (s.setSeq a k).reps = s.reps := by cases a <;> rfl
@[simp] theorem setSeq_tops (s : State) (a : Agent) (k : Seq) : (s.setSeq a k).tops = s.tops := by cases a <;> rfl
@[simp] theorem setSeq_launches (s : State) (a : Agent) (k : Seq) : (s.setSeq a k).launches = s.launches := by cases a <;> rfl
@[simp] theorem setSeq_queues (s : State) (a : Agent) (k : Seq) : (s.setSeq a k).queues = s.queues := by cases a <;> rfl
@[simp] theorem setSeq_freezes (s : State) (a : Agent) (k : Seq) : (s.setSeq a k).freezes = s.freezes := by cases a <;> rfl
@[simp] theorem setSeq_notes (s : State) (a : Agent) (k : Seq) : (s.setSeq a k).notes = s.notes := by cases a <;> rfl
@[simp] theorem setSeq_irqs (s : State) (a : Agent) (k : Seq) : (s.setSeq a k).irqs = s.irqs := by cases a <;> rfl
@[simp] theorem setSeq_hostReads (s : State) (a : Agent) (k : Seq) : (s.setSeq a k).hostReads = s.hostReads := by cases a <;> rfl
@[simp] theorem setSeq_peerReps (s : State) (a : Agent) (k : Seq) : (s.setSeq a k).peerReps = s.peerReps := by cases a <;> rfl
@[simp] theorem setSeq_recalls (s : State) (a : Agent) (k : Seq) : (s.setSeq a k).recalls = s.recalls := by cases a <;> rfl
@[simp] theorem setSeq_contexts (s : State) (a : Agent) (k : Seq) : (s.setSeq a k).contexts = s.contexts := by cases a <;> rfl
@[simp] theorem setSeq_peerLeases (s : State) (a : Agent) (k : Seq) : (s.setSeq a k).peerLeases = s.peerLeases := by cases a <;> rfl

/-! ## modSeq -/

@[simp] theorem modSeq_now (s : State) (a : Agent) (f : Seq → Seq) : (s.modSeq a f).now = s.now := setSeq_now s a _
@[simp] theorem modSeq_timeBase (s : State) (a : Agent) (f : Seq → Seq) : (s.modSeq a f).timeBase = s.timeBase := setSeq_timeBase s a _
@[simp] theorem modSeq_turns (s : State) (a : Agent) (f : Seq → Seq) : (s.modSeq a f).turns = s.turns := setSeq_turns s a _
@[simp] theorem modSeq_agenda (s : State) (a : Agent) (f : Seq → Seq) : (s.modSeq a f).agenda = s.agenda := setSeq_agenda s a _
@[simp] theorem modSeq_free (s : State) (a : Agent) (f : Seq → Seq) : (s.modSeq a f).free = s.free := setSeq_free s a _
@[simp] theorem modSeq_nextId (s : State) (a : Agent) (f : Seq → Seq) : (s.modSeq a f).nextId = s.nextId := setSeq_nextId s a _
@[simp] theorem modSeq_cur (s : State) (a : Agent) (f : Seq → Seq) : (s.modSeq a f).cur = s.cur := setSeq_cur s a _
@[simp] theorem modSeq_fw (s : State) (a : Agent) (f : Seq → Seq) : (s.modSeq a f).fw = s.fw := setSeq_fw s a _
@[simp] theorem modSeq_clusters (s : State) (a : Agent) (f : Seq → Seq) : (s.modSeq a f).clusters = s.clusters := setSeq_clusters s a _
@[simp] theorem modSeq_domes (s : State) (a : Agent) (f : Seq → Seq) : (s.modSeq a f).domes = s.domes := setSeq_domes s a _
@[simp] theorem modSeq_spireMon (s : State) (a : Agent) (f : Seq → Seq) : (s.modSeq a f).spireMon = s.spireMon := setSeq_spireMon s a _
@[simp] theorem modSeq_domeMon (s : State) (a : Agent) (f : Seq → Seq) : (s.modSeq a f).domeMon = s.domeMon := setSeq_domeMon s a _
@[simp] theorem modSeq_mem (s : State) (a : Agent) (f : Seq → Seq) : (s.modSeq a f).mem = s.mem := setSeq_mem s a _
@[simp] theorem modSeq_poison (s : State) (a : Agent) (f : Seq → Seq) : (s.modSeq a f).poison = s.poison := setSeq_poison s a _
@[simp] theorem modSeq_bad (s : State) (a : Agent) (f : Seq → Seq) : (s.modSeq a f).bad = s.bad := setSeq_bad s a _
@[simp] theorem modSeq_ptes (s : State) (a : Agent) (f : Seq → Seq) : (s.modSeq a f).ptes = s.ptes := setSeq_ptes s a _
@[simp] theorem modSeq_reqs (s : State) (a : Agent) (f : Seq → Seq) : (s.modSeq a f).reqs = s.reqs := setSeq_reqs s a _
@[simp] theorem modSeq_reps (s : State) (a : Agent) (f : Seq → Seq) : (s.modSeq a f).reps = s.reps := setSeq_reps s a _
@[simp] theorem modSeq_tops (s : State) (a : Agent) (f : Seq → Seq) : (s.modSeq a f).tops = s.tops := setSeq_tops s a _
@[simp] theorem modSeq_launches (s : State) (a : Agent) (f : Seq → Seq) : (s.modSeq a f).launches = s.launches := setSeq_launches s a _
@[simp] theorem modSeq_queues (s : State) (a : Agent) (f : Seq → Seq) : (s.modSeq a f).queues = s.queues := setSeq_queues s a _
@[simp] theorem modSeq_freezes (s : State) (a : Agent) (f : Seq → Seq) : (s.modSeq a f).freezes = s.freezes := setSeq_freezes s a _
@[simp] theorem modSeq_notes (s : State) (a : Agent) (f : Seq → Seq) : (s.modSeq a f).notes = s.notes := setSeq_notes s a _
@[simp] theorem modSeq_irqs (s : State) (a : Agent) (f : Seq → Seq) : (s.modSeq a f).irqs = s.irqs := setSeq_irqs s a _
@[simp] theorem modSeq_hostReads (s : State) (a : Agent) (f : Seq → Seq) : (s.modSeq a f).hostReads = s.hostReads := setSeq_hostReads s a _
@[simp] theorem modSeq_peerReps (s : State) (a : Agent) (f : Seq → Seq) : (s.modSeq a f).peerReps = s.peerReps := setSeq_peerReps s a _
@[simp] theorem modSeq_recalls (s : State) (a : Agent) (f : Seq → Seq) : (s.modSeq a f).recalls = s.recalls := setSeq_recalls s a _
@[simp] theorem modSeq_contexts (s : State) (a : Agent) (f : Seq → Seq) : (s.modSeq a f).contexts = s.contexts := setSeq_contexts s a _
@[simp] theorem modSeq_peerLeases (s : State) (a : Agent) (f : Seq → Seq) : (s.modSeq a f).peerLeases = s.peerLeases := setSeq_peerLeases s a _

/-! ## setEntries -/

@[simp] theorem setEntries_now (s : State) (a : Agent) (q : QName) (l : List Entry) : (s.setEntries a q l).now = s.now := modSeq_now s _ _
@[simp] theorem setEntries_timeBase (s : State) (a : Agent) (q : QName) (l : List Entry) : (s.setEntries a q l).timeBase = s.timeBase := modSeq_timeBase s _ _
@[simp] theorem setEntries_turns (s : State) (a : Agent) (q : QName) (l : List Entry) : (s.setEntries a q l).turns = s.turns := modSeq_turns s _ _
@[simp] theorem setEntries_agenda (s : State) (a : Agent) (q : QName) (l : List Entry) : (s.setEntries a q l).agenda = s.agenda := modSeq_agenda s _ _
@[simp] theorem setEntries_free (s : State) (a : Agent) (q : QName) (l : List Entry) : (s.setEntries a q l).free = s.free := modSeq_free s _ _
@[simp] theorem setEntries_nextId (s : State) (a : Agent) (q : QName) (l : List Entry) : (s.setEntries a q l).nextId = s.nextId := modSeq_nextId s _ _
@[simp] theorem setEntries_cur (s : State) (a : Agent) (q : QName) (l : List Entry) : (s.setEntries a q l).cur = s.cur := modSeq_cur s _ _
@[simp] theorem setEntries_fw (s : State) (a : Agent) (q : QName) (l : List Entry) : (s.setEntries a q l).fw = s.fw := modSeq_fw s _ _
@[simp] theorem setEntries_clusters (s : State) (a : Agent) (q : QName) (l : List Entry) : (s.setEntries a q l).clusters = s.clusters := modSeq_clusters s _ _
@[simp] theorem setEntries_domes (s : State) (a : Agent) (q : QName) (l : List Entry) : (s.setEntries a q l).domes = s.domes := modSeq_domes s _ _
@[simp] theorem setEntries_spireMon (s : State) (a : Agent) (q : QName) (l : List Entry) : (s.setEntries a q l).spireMon = s.spireMon := modSeq_spireMon s _ _
@[simp] theorem setEntries_domeMon (s : State) (a : Agent) (q : QName) (l : List Entry) : (s.setEntries a q l).domeMon = s.domeMon := modSeq_domeMon s _ _
@[simp] theorem setEntries_mem (s : State) (a : Agent) (q : QName) (l : List Entry) : (s.setEntries a q l).mem = s.mem := modSeq_mem s _ _
@[simp] theorem setEntries_poison (s : State) (a : Agent) (q : QName) (l : List Entry) : (s.setEntries a q l).poison = s.poison := modSeq_poison s _ _
@[simp] theorem setEntries_bad (s : State) (a : Agent) (q : QName) (l : List Entry) : (s.setEntries a q l).bad = s.bad := modSeq_bad s _ _
@[simp] theorem setEntries_ptes (s : State) (a : Agent) (q : QName) (l : List Entry) : (s.setEntries a q l).ptes = s.ptes := modSeq_ptes s _ _
@[simp] theorem setEntries_reqs (s : State) (a : Agent) (q : QName) (l : List Entry) : (s.setEntries a q l).reqs = s.reqs := modSeq_reqs s _ _
@[simp] theorem setEntries_reps (s : State) (a : Agent) (q : QName) (l : List Entry) : (s.setEntries a q l).reps = s.reps := modSeq_reps s _ _
@[simp] theorem setEntries_tops (s : State) (a : Agent) (q : QName) (l : List Entry) : (s.setEntries a q l).tops = s.tops := modSeq_tops s _ _
@[simp] theorem setEntries_launches (s : State) (a : Agent) (q : QName) (l : List Entry) : (s.setEntries a q l).launches = s.launches := modSeq_launches s _ _
@[simp] theorem setEntries_queues (s : State) (a : Agent) (q : QName) (l : List Entry) : (s.setEntries a q l).queues = s.queues := modSeq_queues s _ _
@[simp] theorem setEntries_freezes (s : State) (a : Agent) (q : QName) (l : List Entry) : (s.setEntries a q l).freezes = s.freezes := modSeq_freezes s _ _
@[simp] theorem setEntries_notes (s : State) (a : Agent) (q : QName) (l : List Entry) : (s.setEntries a q l).notes = s.notes := modSeq_notes s _ _
@[simp] theorem setEntries_irqs (s : State) (a : Agent) (q : QName) (l : List Entry) : (s.setEntries a q l).irqs = s.irqs := modSeq_irqs s _ _
@[simp] theorem setEntries_hostReads (s : State) (a : Agent) (q : QName) (l : List Entry) : (s.setEntries a q l).hostReads = s.hostReads := modSeq_hostReads s _ _
@[simp] theorem setEntries_peerReps (s : State) (a : Agent) (q : QName) (l : List Entry) : (s.setEntries a q l).peerReps = s.peerReps := modSeq_peerReps s _ _
@[simp] theorem setEntries_recalls (s : State) (a : Agent) (q : QName) (l : List Entry) : (s.setEntries a q l).recalls = s.recalls := modSeq_recalls s _ _
@[simp] theorem setEntries_contexts (s : State) (a : Agent) (q : QName) (l : List Entry) : (s.setEntries a q l).contexts = s.contexts := modSeq_contexts s _ _
@[simp] theorem setEntries_peerLeases (s : State) (a : Agent) (q : QName) (l : List Entry) : (s.setEntries a q l).peerLeases = s.peerLeases := modSeq_peerLeases s _ _

/-! ## modMx -/

@[simp] theorem modMx_now (s : State) (c : Nat) (f : Matrix → Matrix) : (s.modMx c f).now = s.now := rfl
@[simp] theorem modMx_timeBase (s : State) (c : Nat) (f : Matrix → Matrix) : (s.modMx c f).timeBase = s.timeBase := rfl
@[simp] theorem modMx_turns (s : State) (c : Nat) (f : Matrix → Matrix) : (s.modMx c f).turns = s.turns := rfl
@[simp] theorem modMx_agenda (s : State) (c : Nat) (f : Matrix → Matrix) : (s.modMx c f).agenda = s.agenda := rfl
@[simp] theorem modMx_free (s : State) (c : Nat) (f : Matrix → Matrix) : (s.modMx c f).free = s.free := rfl
@[simp] theorem modMx_nextId (s : State) (c : Nat) (f : Matrix → Matrix) : (s.modMx c f).nextId = s.nextId := rfl
@[simp] theorem modMx_cur (s : State) (c : Nat) (f : Matrix → Matrix) : (s.modMx c f).cur = s.cur := rfl
@[simp] theorem modMx_fw (s : State) (c : Nat) (f : Matrix → Matrix) : (s.modMx c f).fw = s.fw := rfl
@[simp] theorem modMx_pairs (s : State) (c : Nat) (f : Matrix → Matrix) : (s.modMx c f).pairs = s.pairs := rfl
@[simp] theorem modMx_clusters (s : State) (c : Nat) (f : Matrix → Matrix) : (s.modMx c f).clusters = s.clusters := rfl
@[simp] theorem modMx_domes (s : State) (c : Nat) (f : Matrix → Matrix) : (s.modMx c f).domes = s.domes := rfl
@[simp] theorem modMx_spireMon (s : State) (c : Nat) (f : Matrix → Matrix) : (s.modMx c f).spireMon = s.spireMon := rfl
@[simp] theorem modMx_domeMon (s : State) (c : Nat) (f : Matrix → Matrix) : (s.modMx c f).domeMon = s.domeMon := rfl
@[simp] theorem modMx_mem (s : State) (c : Nat) (f : Matrix → Matrix) : (s.modMx c f).mem = s.mem := rfl
@[simp] theorem modMx_poison (s : State) (c : Nat) (f : Matrix → Matrix) : (s.modMx c f).poison = s.poison := rfl
@[simp] theorem modMx_bad (s : State) (c : Nat) (f : Matrix → Matrix) : (s.modMx c f).bad = s.bad := rfl
@[simp] theorem modMx_ptes (s : State) (c : Nat) (f : Matrix → Matrix) : (s.modMx c f).ptes = s.ptes := rfl
@[simp] theorem modMx_reqs (s : State) (c : Nat) (f : Matrix → Matrix) : (s.modMx c f).reqs = s.reqs := rfl
@[simp] theorem modMx_reps (s : State) (c : Nat) (f : Matrix → Matrix) : (s.modMx c f).reps = s.reps := rfl
@[simp] theorem modMx_tops (s : State) (c : Nat) (f : Matrix → Matrix) : (s.modMx c f).tops = s.tops := rfl
@[simp] theorem modMx_launches (s : State) (c : Nat) (f : Matrix → Matrix) : (s.modMx c f).launches = s.launches := rfl
@[simp] theorem modMx_queues (s : State) (c : Nat) (f : Matrix → Matrix) : (s.modMx c f).queues = s.queues := rfl
@[simp] theorem modMx_freezes (s : State) (c : Nat) (f : Matrix → Matrix) : (s.modMx c f).freezes = s.freezes := rfl
@[simp] theorem modMx_notes (s : State) (c : Nat) (f : Matrix → Matrix) : (s.modMx c f).notes = s.notes := rfl
@[simp] theorem modMx_irqs (s : State) (c : Nat) (f : Matrix → Matrix) : (s.modMx c f).irqs = s.irqs := rfl
@[simp] theorem modMx_hostReads (s : State) (c : Nat) (f : Matrix → Matrix) : (s.modMx c f).hostReads = s.hostReads := rfl
@[simp] theorem modMx_peerReps (s : State) (c : Nat) (f : Matrix → Matrix) : (s.modMx c f).peerReps = s.peerReps := rfl
@[simp] theorem modMx_recalls (s : State) (c : Nat) (f : Matrix → Matrix) : (s.modMx c f).recalls = s.recalls := rfl
@[simp] theorem modMx_contexts (s : State) (c : Nat) (f : Matrix → Matrix) : (s.modMx c f).contexts = s.contexts := rfl
@[simp] theorem modMx_peerLeases (s : State) (c : Nat) (f : Matrix → Matrix) : (s.modMx c f).peerLeases = s.peerLeases := rfl

end Sys2Proof.Laws
end

