-- ==== Sys2Proof/Laws/Slot.lean ====
section
/-! SUPPORT. What the issue of one slot does, said once: reading its sources, reserving its destinations, and the three
outcomes of a slot taken by itself. -/

namespace Sys2Proof.Laws

open Sys2Proof.Machine

/-! ## Register queues across updates -/

theorem seq_cur (s : State) (c : Cur) (a : Agent) : { s with cur := c }.seq a = s.seq a := by cases a <;> rfl

theorem entries_cur (s : State) (c : Cur) (a : Agent) (q : QName) : { s with cur := c }.entries a q = s.entries a q := by
  simp [State.entries, seq_cur]

theorem modSeq_with_cur (s : State) (c : Cur) (a : Agent) (f : Seq → Seq) :
    { s with cur := c }.modSeq a f = { s.modSeq a f with cur := c } := by
  cases a <;> rfl

/-- A reservation looks at the queues alone. -/
theorem reserve_cur (s : State) (c : Cur) (a : Agent) (q : QName) (due : Nat) :
    reserve { s with cur := c } a q due = (reserve s a q due).map (fun r => (r.1, { r.2 with cur := c })) := by
  simp only [reserve, entries_cur, seq_cur, modSeq_with_cur]
  split <;> rfl

theorem reserve_keeps_cur {s t : State} {a : Agent} {q : QName} {due id : Nat} (h : reserve s a q due = some (id, t)) :
    t.cur = s.cur := by
  simp only [reserve] at h
  split at h
  · cases h
  · cases h; simp

theorem reserveAll_cur (a : Agent) (l : List (QName × Nat)) : ∀ (s : State) (c : Cur) (ids : List Nat),
    reserveAll a l { s with cur := c } ids = (reserveAll a l s ids).map (fun r => (r.1, { r.2 with cur := c })) := by
  induction l with
  | nil => intro s c ids; rfl
  | cons x l ih =>
    intro s c ids
    obtain ⟨q, due⟩ := x
    simp only [reserveAll, reserve_cur]
    cases h : reserve s a q due with
    | none => rfl
    | some r => exact ih r.2 c _

theorem reserveAll_keeps_cur {a : Agent} (l : List (QName × Nat)) : ∀ {s t : State} {ids out : List Nat},
    reserveAll a l s ids = .ok (out, t) → t.cur = s.cur := by
  induction l with
  | nil => intro s t ids out h; cases h; rfl
  | cons x l ih =>
    intro s t ids out h
    obtain ⟨q, due⟩ := x
    simp only [reserveAll] at h
    cases hr : reserve s a q due with
    | none => simp [hr] at h
    | some r =>
      simp only [hr] at h
      exact (ih h).trans (reserve_keeps_cur hr)

/-! ## Reading -/

theorem readQueue_keeps_cur {s t : State} {a : Agent} {pos : Pos} {q : QName} {pk : Bool} {v : V512}
    (h : readQueue s a pos q pk = .got v t) : t.cur = s.cur := by
  unfold readQueue at h
  repeat' split at h
  all_goals first
    | (cases h; done)
    | (cases h; rfl)
    | (cases h; simp)

theorem readStream_keeps_cur {s t : State} {a : Agent} {pos : Pos} {n : Nat} {ty : BitVec 4} {v : V512}
    (h : readStream s a pos n ty = .got v t) : t.cur = s.cur := by
  simp only [readStream] at h
  repeat' split at h
  all_goals first
    | (cases h; done)
    | (cases h; simp)

theorem readSrc_keeps_cur {s t : State} {a : Agent} {pos : Pos} {x : Src} {v : V512}
    (h : readSrc s a pos x = .got v t) : t.cur = s.cur := by
  cases x with
  | x n pk => exact readQueue_keeps_cur h
  | v o =>
    simp only [readSrc] at h
    repeat' split at h
    all_goals first
      | (cases h; rfl)
      | (rename_i hq; cases h; exact readQueue_keeps_cur hq)
      | (rename_i hq; cases h; exact readStream_keeps_cur hq)
      | (exact absurd h (by simp_all))

theorem readSrcs_keeps_cur (a : Agent) (pos : Pos) (l : List Src) : ∀ {s t : State} {acc vs : List V512},
    readSrcs a pos l s acc = .ok (vs, t) → t.cur = s.cur := by
  induction l with
  | nil => intro s t acc vs h; cases h; rfl
  | cons x l ih =>
    intro s t acc vs h
    simp only [readSrcs] at h
    cases hr : readSrc s a pos x with
    | got v s' => simp only [hr] at h; exact (ih h).trans (readSrc_keeps_cur hr)
    | fault c f => simp [hr] at h
    | waits => simp [hr] at h

/-! ## A slot by itself -/

theorem cur_cleared {c : Cur} (h1 : c.vals = []) (h2 : c.ids = []) (h3 : c.took = []) :
    { c with vals := [], ids := [], took := [] } = c := by
  cases c; simp_all

/-- A slot that is not true does nothing (R60). -/
theorem runSlot_false {p : Pre} {plan : State → Plan} {s : State} (al : s.Alone)
    (h : slotTrue p (plan s).lane s = false) : runSlot p plan s = s := by
  obtain ⟨h1, h2, h3, h4, h5, h6, h7, h8⟩ := al
  have lat : s.latched p.pos = none := by simp [State.latched, h2]
  have hs : { s with cur := { s.cur with vals := [], ids := [], took := [] } } = s := by rw [cur_cleared h2 h3 h5]
  have e1 : readPhase p (plan s) s = s := by simp [readPhase, h]
  have e2 : reservePhase p (plan s) s = s := by simp [reservePhase, lat]
  have e3 : commitPhase p (plan s) s = s := by simp [commitPhase, lat]
  have e4 : finishTrap s = s := by simp [finishTrap, h8]
  simp only [runSlot, h1, e1, e2]
  rw [if_neg (by simp [h6]), if_neg (by simp [h4]), if_neg (by simp [h7]), e3, e4]
  exact hs

/-- Reading, where every source can be read. -/
theorem readPhase_ok {p : Pre} {pl : Plan} {s t : State} {vs : List V512} (tr : slotTrue p pl.lane s = true)
    (rd : ReadsTo p pl.srcs s vs t) :
    readPhase p pl s = { t with cur := { s.cur with vals := s.cur.vals ++ [(p.pos, vs)] } } := by
  have hc := readSrcs_keeps_cur _ _ _ rd
  simp only [ReadsTo] at rd
  simp only [readPhase, tr, rd, hc, Cur.latch, if_true]

/-- Reserving, where the act finds no fault and every destination has room. -/
theorem reservePhase_ok {p : Pre} {pl : Plan} {t u : State} {c : Cur} {vs : List V512} {ids : List Nat}
    (lat : State.latched { t with cur := c } p.pos = some vs) (nf : (pl.act vs).fault = none)
    (nw : (pl.act vs).wait = false) (rs : reserveAll c.agent (pl.act vs).dsts t [] = .ok (ids, u)) :
    reservePhase p pl { t with cur := c } =
      { u with cur := { c with ids := c.ids ++ [(p.pos, ids)], took := c.took ++ (pl.act vs).take } } := by
  simp only [reservePhase, lat, nf, nw, reserveAll_cur, rs, Except.map, Bool.false_and, Bool.or_false]

/-- Reserving, where the act finds a fault: whatever the slot still pushes, the fault is noted. -/
theorem reservePhase_fault {p : Pre} {pl : Plan} {t : State} {c : Cur} {vs : List V512} {cz : BitVec 8} {f : FRec}
    (hb : c.slotBad p.pos = false) (lat : State.latched { t with cur := c } p.pos = some vs)
    (ft : (pl.act vs).fault = some (cz, f)) :
    (reservePhase p pl { t with cur := c }).cur = (State.addFault { t with cur := c } p.pos cz f).cur := by
  simp only [reservePhase, lat, ft, hb, Bool.false_eq_true, if_false]
  split
  · rename_i h; exact reserveAll_keeps_cur _ h
  · rfl

/-- Reserving, where a destination is full. -/
theorem reservePhase_full {p : Pre} {pl : Plan} {t : State} {c : Cur} {vs : List V512}
    (hb : c.slotBad p.pos = false) (lat : State.latched { t with cur := c } p.pos = some vs) (nf : (pl.act vs).fault = none)
    (rs : reserveAll c.agent (pl.act vs).dsts t [] = .error false) :
    reservePhase p pl { t with cur := c } = State.addFault { t with cur := c } p.pos qOverflow FRec.none := by
  simp only [reservePhase, lat, nf, reserveAll_cur, rs, Except.map, hb, Bool.false_eq_true, if_false]

theorem latched_own (t : State) (c : Cur) (pos : Pos) (vs : List V512) (h : c.vals = [(pos, vs)]) :
    State.latched { t with cur := c } pos = some vs := by
  simp [State.latched, h]

/-- A slot that has found a fault traps and leaves the rest of the state as it was. -/
theorem runSlot_faulted {p : Pre} {plan : State → Plan} {s : State} (h1 : s.cur.phase = .whole) {u : State}
    (e : reservePhase p (plan s) (readPhase p (plan s) s) = u) (hw : u.cur.waits = false)
    (hn : u.cur.faults.isEmpty = false) : runSlot p plan s = takeTrap s s.cur.agent u.cur.faults s.cur.pos := by
  simp only [runSlot, h1, e]
  rw [if_neg (by simp [hw]), if_pos (by simp [hn])]

/-- Committing, with the slot's own values and entries. -/
theorem commitPhase_ok {p : Pre} {pl : Plan} {t : State} {vs : List V512} {ids : List Nat}
    (hv : t.cur.vals = [(p.pos, vs)]) (hi : t.cur.ids = [(p.pos, ids)]) :
    commitPhase p pl t = (pl.act vs).commit ids t := by
  have lat : t.latched p.pos = some vs := by simp [State.latched, hv]
  have own : posAssoc t.cur.ids p.pos [] = ids := by simp [posAssoc, hi]
  simp only [commitPhase, lat, own]

/-- A slot that has found no fault and need not wait commits. -/
theorem runSlot_commits {p : Pre} {plan : State → Plan} {s : State} (h1 : s.cur.phase = .whole) {u : State}
    (e : reservePhase p (plan s) (readPhase p (plan s) s) = u) (hw : u.cur.waits = false) (hf : u.cur.full = false)
    (hn : u.cur.faults = []) :
    runSlot p plan s = (let r := finishTrap (commitPhase p (plan s) u)
                        { r with cur := { r.cur with vals := [], ids := [], took := [] } }) := by
  simp only [runSlot, h1, e]
  rw [if_neg (by simp [hw]), if_neg (by simp [hn]), if_neg (by simp [hf])]

/-- A slot whose sources can be read, whose act finds no fault and whose destinations have room takes effect. -/
theorem runSlot_runs {p : Pre} {plan : State → Plan} {s t u : State} {vs : List V512} {ids : List Nat} (al : s.Alone)
    (tr : slotTrue p (plan s).lane s = true) (rd : ReadsTo p (plan s).srcs s vs t)
    (nf : ((plan s).act vs).fault = none) (nw : ((plan s).act vs).wait = false)
    (rs : reserveAll s.cur.agent ((plan s).act vs).dsts t [] = .ok (ids, u)) :
    runSlot p plan s =
      (let c := { s.cur with vals := [(p.pos, vs)], ids := [(p.pos, ids)], took := ((plan s).act vs).take }
       let r := finishTrap (((plan s).act vs).commit ids { u with cur := c })
       { r with cur := { r.cur with vals := [], ids := [], took := [] } }) := by
  obtain ⟨h1, h2, h3, h4, h5, h6, h7, h8⟩ := al
  have e1 := readPhase_ok tr rd
  have hv : { s.cur with vals := s.cur.vals ++ [(p.pos, vs)] }.vals = [(p.pos, vs)] := by simp [h2]
  have e2 := reservePhase_ok (c := { s.cur with vals := s.cur.vals ++ [(p.pos, vs)] }) (latched_own t _ p.pos vs hv) nf nw rs
  have e3 : ({ { s.cur with vals := s.cur.vals ++ [(p.pos, vs)] } with
      ids := s.cur.ids ++ [(p.pos, ids)], took := s.cur.took ++ ((plan s).act vs).take } : Cur) =
      { s.cur with vals := [(p.pos, vs)], ids := [(p.pos, ids)], took := ((plan s).act vs).take } := by
    rw [h2, h3, h5]; rfl
  rw [← e1, e3] at e2
  rw [runSlot_commits h1 e2 h6 h7 h4]
  rw [commitPhase_ok rfl rfl]

/-- No slot has trapped before this one, when it is taken by itself. -/
theorem slotBad_alone {c : Cur} (h : c.faults = []) (pos : Pos) : c.slotBad pos = false := by simp [Cur.slotBad, h]

/-- Reserving adds no fault to those of a slot that has trapped already. -/
theorem reservePhase_bad {p : Pre} {pl : Plan} {t : State} {c : Cur} (hb : c.slotBad p.pos = true) :
    (reservePhase p pl { t with cur := c }).cur.faults = c.faults ∧
      ((∀ vs, reserveAll c.agent (pl.act vs).dsts t [] ≠ .error true) →
        (reservePhase p pl { t with cur := c }).cur.waits = c.waits) := by
  unfold reservePhase
  cases hl : State.latched { t with cur := c } p.pos with
  | none => exact ⟨rfl, fun _ => rfl⟩
  | some vs =>
    simp only [hb, if_true]
    cases hf : (pl.act vs).fault with
    | some x =>
      simp only
      split
      · rename_i h; have hc := reserveAll_keeps_cur _ h; exact ⟨by rw [hc], fun _ => by rw [hc]⟩
      · exact ⟨rfl, fun _ => rfl⟩
    | none =>
      simp only [reserveAll_cur]
      cases hr : reserveAll c.agent (pl.act vs).dsts t [] with
      | ok x => exact ⟨rfl, fun _ => rfl⟩
      | error b =>
        cases b
        · exact ⟨rfl, fun _ => rfl⟩
        · exact ⟨rfl, fun h => absurd hr (h vs)⟩

/-- A slot of which a read traps, while no joining queue makes it wait, traps and changes nothing else (R79, R102). -/
theorem runSlot_read_traps {p : Pre} {plan : State → Plan} {s : State} {r : ReadStop} {cz : BitVec 8} {f : FRec} (al : s.Alone)
    (tr : slotTrue p (plan s).lane s = true)
    (rd : readSrcs s.cur.agent p.pos (plan s).srcs s [] = .error r) (hf : r.fault = some (cz, f)) (hw : r.waits = false)
    (hl : ∀ vs, reserveAll s.cur.agent ((plan s).act vs).dsts r.state [] ≠ .error true) :
    runSlot p plan s = takeTrap s s.cur.agent (oneFault p.pos cz f) s.cur.pos := by
  obtain ⟨h1, h2, h3, h4, h5, h6, h7, h8⟩ := al
  have e1 : readPhase p (plan s) s = { r.state with cur :=
      { (s.cur.latch p.pos r.vals) with waits := false, faults := [{ slot := p.pos, cause := cz, frec := { f with slot := p.pos } }] } } := by
    simp only [readPhase, tr, rd, hf, hw, h6, if_true, State.addFault, Cur.latch, h4, Bool.or_false, List.nil_append]
  have hb : Cur.slotBad { (s.cur.latch p.pos r.vals) with waits := false, faults := [{ slot := p.pos, cause := cz, frec := { f with slot := p.pos } }] } p.pos = true := by
    simp [Cur.slotBad]
  have b := reservePhase_bad (pl := plan s) (t := r.state) hb
  rw [← e1] at b
  have e2 := runSlot_faulted (plan := plan) h1 rfl (b.2 hl) (by rw [b.1]; rfl)
  rw [e2, b.1]
  rfl

/-- A slot whose own checks fail traps and changes nothing else (R79). -/
theorem runSlot_act_traps {p : Pre} {plan : State → Plan} {s t : State} {vs : List V512} {cz : BitVec 8} {f : FRec}
    (al : s.Alone) (tr : slotTrue p (plan s).lane s = true) (rd : ReadsTo p (plan s).srcs s vs t)
    (ft : ((plan s).act vs).fault = some (cz, f)) :
    runSlot p plan s = takeTrap s s.cur.agent (oneFault p.pos cz f) s.cur.pos := by
  obtain ⟨h1, h2, h3, h4, h5, h6, h7, h8⟩ := al
  have hv : { s.cur with vals := s.cur.vals ++ [(p.pos, vs)] }.vals = [(p.pos, vs)] := by simp [h2]
  have e2 := reservePhase_fault (c := { s.cur with vals := s.cur.vals ++ [(p.pos, vs)] }) (slotBad_alone h4 _)
    (latched_own t _ p.pos vs hv) ft
  rw [← readPhase_ok tr rd] at e2
  rw [runSlot_faulted h1 rfl (by rw [e2, readPhase_ok tr rd]; exact h6) (by rw [e2]; simp [State.addFault])]
  rw [e2, readPhase_ok tr rd]
  simp only [State.addFault, h4, oneFault, List.nil_append]

/-- A slot whose one destination is full traps with QUEUE_OVERFLOW and changes nothing else (R102). -/
theorem runSlot_full_traps {p : Pre} {plan : State → Plan} {s t : State} {vs : List V512} (al : s.Alone)
    (tr : slotTrue p (plan s).lane s = true) (rd : ReadsTo p (plan s).srcs s vs t)
    (nf : ((plan s).act vs).fault = none)
    (rs : reserveAll s.cur.agent ((plan s).act vs).dsts t [] = .error false) :
    runSlot p plan s = takeTrap s s.cur.agent (oneFault p.pos qOverflow FRec.none) s.cur.pos := by
  obtain ⟨h1, h2, h3, h4, h5, h6, h7, h8⟩ := al
  have hv : { s.cur with vals := s.cur.vals ++ [(p.pos, vs)] }.vals = [(p.pos, vs)] := by simp [h2]
  have e2 := reservePhase_full (c := { s.cur with vals := s.cur.vals ++ [(p.pos, vs)] }) (slotBad_alone h4 _)
    (latched_own t _ p.pos vs hv) nf rs
  rw [← readPhase_ok tr rd] at e2
  rw [runSlot_faulted h1 e2 (by rw [readPhase_ok tr rd]; exact h6) (by simp [State.addFault])]
  rw [readPhase_ok tr rd]
  simp only [State.addFault, h4, oneFault, List.nil_append]

/-! ## The two plain kinds of effect -/

theorem landEntry_cur (s : State) (c : Cur) (a : Agent) (q : QName) (id : Nat) (v : V512) (po : Option Nat) :
    landEntry { s with cur := c } a q id v po = { landEntry s a q id v po with cur := c } := by
  simp only [landEntry, entries_cur, State.setEntries, modSeq_with_cur]

theorem landEntry_keeps_cur (s : State) (a : Agent) (q : QName) (id : Nat) (v : V512) (po : Option Nat) :
    (landEntry s a q id v po).cur = s.cur := by
  simp [landEntry]

theorem finishTrap_none {s : State} (h : s.cur.trapAfter = none) : finishTrap s = s := by simp [finishTrap, h]

/-- What a commit that does not look at the bundle's own notes leaves, once the notes are cleared. -/
theorem finish_plain {s u w : State} {c : Cur} (al : s.Alone) (hu : u.cur = s.cur)
    (hv : { c with vals := [], ids := [], took := [] } = { s.cur with vals := [], ids := [], took := [] })
    (ht : c.trapAfter = none) (hw : w.cur = u.cur) :
    (let r := finishTrap { w with cur := c }
     { r with cur := { r.cur with vals := [], ids := [], took := [] } }) = w := by
  obtain ⟨_, h2, h3, _, h5, _, _, _⟩ := al
  rw [finishTrap_none (s := { w with cur := c }) ht]
  show { w with cur := { c with vals := [], ids := [], took := [] } } = w
  rw [hv, cur_cleared h2 h3 h5, ← hu, ← hw]

/-- A slot that pushes one value. -/
theorem runSlot_push {p : Pre} {plan : State → Plan} {s t u : State} {vs : List V512} {q : QName} {due id : Nat} {v : V512}
    (al : s.Alone) (tr : slotTrue p (plan s).lane s = true) (rd : ReadsTo p (plan s).srcs s vs t)
    (ac : (plan s).act vs = Act.push s.cur.agent q due v) (rs : reserve t s.cur.agent q due = some (id, u)) :
    runSlot p plan s = landEntry u s.cur.agent q id v none := by
  have ra : reserveAll s.cur.agent ((plan s).act vs).dsts t [] = .ok ([id], u) := by
    rw [ac]; simp only [Act.push, reserveAll, rs, List.nil_append]
  have hu : u.cur = s.cur := (reserve_keeps_cur rs).trans (readSrcs_keeps_cur _ _ _ rd)
  rw [runSlot_runs al tr rd (by rw [ac]; rfl) (by rw [ac]; rfl) ra, ac]
  simp only [Act.push, List.headD_cons, landEntry_cur]
  exact finish_plain al hu rfl al.2.2.2.2.2.2.2 (landEntry_keeps_cur u _ _ _ _ _)

/-- A slot that only acts on the state, where its act does not look at the bundle's own notes. -/
theorem runSlot_eff {p : Pre} {plan : State → Plan} {s t : State} {vs : List V512} {f : State → State}
    (al : s.Alone) (tr : slotTrue p (plan s).lane s = true) (rd : ReadsTo p (plan s).srcs s vs t)
    (ac : (plan s).act vs = Act.eff f)
    (hf : ∀ vals ids, f { t with cur := { s.cur with vals := vals, ids := ids, took := [] } } =
      { f t with cur := { s.cur with vals := vals, ids := ids, took := [] } }) (hk : (f t).cur = t.cur) :
    runSlot p plan s = f t := by
  have ra : reserveAll s.cur.agent ((plan s).act vs).dsts t [] = .ok ([], t) := by rw [ac]; rfl
  rw [runSlot_runs al tr rd (by rw [ac]; rfl) (by rw [ac]; rfl) ra, ac]
  simp only [Act.eff, hf]
  exact finish_plain al (readSrcs_keeps_cur _ _ _ rd) rfl al.2.2.2.2.2.2.2 hk

end Sys2Proof.Laws
end

