-- ==== Sys2Proof/Tests/Slice0.lean ====
section
/-! SUPPORT. Tests: terms that the encodings refuse, words written out from the encodings, results taken from the manual's own
examples and tables, and for the statements a concrete state and operands that meet their hypotheses. -/

set_option maxRecDepth 20000
set_option exponentiation.threshold 600

namespace Sys2Proof.Tests

open Sys2Proof Sys2Proof.Machine Sys2Proof.Claims

/-! ## Ill-formed terms, one for each check, refused -/

/-- A slot prefix at a position: p0, true sense, not held. -/
def at_ (pos : Pos) : Pre := ⟨pos, false, 0, false⟩
def heldAt (pos : Pos) : Pre := ⟨pos, true, 0, false⟩
/-- Zero operands of each format. -/
def s3 : FmtS3 := ⟨2, 0, 1, false, false, 0, 0⟩
def si : FmtSI := ⟨2, 0, false, 0, 0⟩
def sp_ : FmtSP := ⟨1, 2, 3, false, false, 0, false⟩
def sj : FmtSJ := ⟨0, 0, false, 0⟩
def sk : FmtSK := ⟨0, false, 0, 0⟩
def sn : FmtSN := ⟨0, 0, 0⟩
def v2 : FmtV2 := ⟨2, 0, 1, false, false, 2, 0, 0⟩
def v1 : FmtV2 := ⟨2, 0, 0, false, false, 2, 0, 0⟩
def v3 : FmtV3 := ⟨3, 0, 1, 2, 2, 0, false⟩
def mt : FmtMT := ⟨0, 1, 2, 0, 3, false⟩
def mt1 : FmtMT := ⟨0, 1, 0, 0, 3, false⟩
def cl : FmtCL := ⟨2, 0, 0, false, false, 3, 0⟩
def cl7 : FmtCL := ⟨2, 0, 0, false, false, 7, 0⟩
def ch : FmtCH := ⟨2, 0, 0, false, 0, 3, false, 0⟩
def ch7 : FmtCH := ⟨2, 0, 0, false, 0, 7, false, 0⟩
def ca : FmtCA := ⟨2, 0, 0, 1, 0, 0, true, false, 0⟩
def ce : FmtCE := ⟨false, 0, 0, 0, false, false, false, 2, 0, false⟩
def ct : FmtCT := ⟨0, 0, false, 0, false⟩
def hdr : CmdHdr := ⟨0, 0, 0, true, false, 0⟩
def bring : BringUp := ⟨[], [], [], [], [], [], [], []⟩

/-- R60, R67, R111 to R130: positions, holds, selectors, immediates, loop and control fields. -/
theorem test_wf_scalar :
    legal .core (.nop (at_ .va)) = false ∧ legal .core (.add (at_ .sc) { s3 with pc := 1 }) = false ∧
    legal .core (.abs (at_ .sc) s3) = false ∧ legal .core (.mov (at_ .sc) { s3 with xb := 0, pc := 7 }) = false ∧
    legal .lanA (.add (at_ .sc) { s3 with xa := 62 }) = false ∧ legal .lanE (.add (at_ .sc) { s3 with xd := 2 }) = false ∧
    legal .core (.shli (at_ .sc) { si with sz := 3, imm := 8 }) = false ∧ legal .core (.cmpeq (at_ .mx) ⟨0, 0, 0, false, false, 0⟩) = false ∧
    legal .core (.pand (at_ .sc) { sp_ with x := 1 }) = false ∧ legal .core (.pnot (at_ .sc) { sp_ with pb := 1 }) = false ∧
    legal .core (.pset (at_ .sc) { sp_ with pa := 1 }) = false ∧ legal .core (.pget (at_ .sc) { sp_ with pd := 1 }) = false ∧
    legal .core (.br (heldAt .sc) sj) = false ∧ legal .core (.br (at_ .sc) { sj with nd := 1 }) = false ∧
    legal .core (.brx (at_ .sc) { sj with target := 1 }) = false ∧ legal .core (.lrun (at_ .sc) sj) = false ∧
    legal .core (.lset (at_ .sc) { sk with cr := 6 }) = false ∧ legal .core (.rdcr (at_ .sc) { sk with cr := 20 }) = false ∧
    legal .lanA (.rdcr (at_ .sc) { sk with cr := 3 }) = false ∧ legal .core (.rdcr (at_ .sc) { sk with cr := 19, idx := 16 }) = false ∧
    legal .core (.wrcrUivec (at_ .sc) ⟨0, false, 1⟩) = false ∧ legal .core (.trap (at_ .sc) { sn with code := 128 }) = false ∧
    legal .lanA (.uiret (at_ .sc)) = false ∧ legal .core (.bell (at_ .sc) { sn with pd := 1 }) = false ∧
    legal .core (.btest (at_ .sc) { sn with code := 1 }) = false ∧ legal .core (.ret (heldAt .sc)) = false := by decide

/-- R64, R68, R131 to R151, R301: vector fields. -/
theorem test_wf_vector :
    legal .core (.vnop (at_ .sc)) = false ∧ legal .core (.vmov (at_ .va) { v1 with vb := 1 }) = false ∧
    legal .core (.vadd (at_ .va) { v2 with vd := 1536 }) = false ∧ legal .core (.vadd (at_ .va) { v2 with va := 1568 }) = false ∧
    legal .core (.vadd (at_ .va) { v2 with va := 1536, pa := true }) = false ∧ legal .core (.vadd (at_ .va) { v2 with rm := 1 }) = false ∧
    legal .core (.vadd (at_ .va) { v2 with ty := 11 }) = false ∧ legal .core (.vand (at_ .va) { v2 with va := 1666, ty := 11 }) = false ∧
    legal .core (.vadds (at_ .va) { v2 with ty := 10 }) = false ∧ legal .core (.vmin (at_ .va) { v2 with aux := 1 }) = false ∧
    legal .core (.vabs (at_ .va) { v1 with pb := true }) = false ∧ legal .core (.vshl (at_ .va) { v1 with ty := 0, aux := 520 }) = false ∧
    legal .core (.vcmpeq (at_ .va) { v2 with vd := 16 }) = false ∧ legal .core (.vcvt (at_ .va) { v1 with aux := 0x12 }) = false ∧
    legal .core (.vqnt (at_ .va) { v2 with ty := 1 }) = false ∧ legal .core (.vbscale (at_ .va) { v2 with ty := 0, aux := 2 }) = false ∧
    legal .core (.vdqnt (at_ .va) { v2 with ty := 0, aux := 4 }) = false ∧ legal .core (.vredadd (at_ .va) { v1 with aux := 1 }) = false ∧
    legal .core (.vpopc (at_ .va) { v1 with ty := 10 }) = false ∧ legal .core (.vexp2 (at_ .va) v1) = false ∧
    legal .core (.vperm (at_ .va) v2) = false ∧ legal .core (.vshuf (at_ .vb) { v1 with aux := 16 }) = false ∧
    legal .core (.vtrn (at_ .vb) { v2 with aux := 8 }) = false ∧ legal .core (.vlane (at_ .vb) { v2 with aux := 16 }) = false ∧
    legal .core (.vzip (at_ .vb) { v2 with aux := 2 }) = false ∧ legal .core (.vrule (at_ .vb) { v2 with ty := 10 }) = false ∧
    legal .lanE (.vrule (at_ .vb) { v2 with va := 64, vd := 1534, ty := 10, aux := 4 }) = false ∧
    legal .core (.vsel (at_ .va) { v3 with ty := 13 }) = false ∧ legal .core (.vfma (at_ .va) { v3 with rm := 1 }) = false := by
  decide

/-- R69, R156 to R161, R257, R258, R405: the matrix slot and the microinstructions. -/
theorem test_wf_matrix :
    legal .core (.mnop (at_ .ca)) = false ∧ legal .core (.mcall (at_ .mx) ⟨0, 1, 1⟩) = false ∧
    legal .core (.msetk (heldAt .mx) ⟨0, 0, false⟩) = false ∧ legal .core (.msetkAll (at_ .mx) ⟨1536, false⟩) = false ∧
    legal .core (.mring (at_ .mx) ⟨0, 0, false, 1⟩) = false ∧ legal .core (.madv (at_ .mx) ⟨0, 0, false, 0⟩) = false ∧
    legal .core (.mdrain (at_ .mx) ⟨6, 0, false, 0⟩) = false ∧ legal .core (.mdrain (at_ .mx) ⟨0, 0, false, 1⟩) = false ∧
    legal .core (.mwait (heldAt .mx)) = false ∧ legal .core (.umac 1 false 0 false) = false ∧
    legal .core (.ustep 0 false true false 0) = false ∧ legal .core (.tadd (at_ .mx) { mt with aux := 8 }) = false ∧
    legal .core (.tadd (at_ .mx) { mt with pt := true }) = false ∧ legal .core (.tred (at_ .mx) mt) = false ∧
    legal .core (.tact (at_ .mx) { mt1 with aux := 0x70 }) = false ∧ legal .core (.twait (at_ .mx) mt1) = false ∧
    legal .core (.twhere (at_ .mx) { mt with aux := 0x1C }) = false ∧ legal .core (.tgather (at_ .mx) { mt1 with aux := 1 }) = false ∧
    legal .core (.matrixCommandStart 8192) = false ∧ legal .core (.tileClaim 0 (.lantern 64)) = false := by decide

/-- R70, R183, R188, R227 to R247, R337: the channel slots. -/
theorem test_wf_channel :
    legal .core (.cnop (at_ .sc)) = false ∧ legal .core (.lds (at_ .ca) cl7) = false ∧
    legal .core (.lds (at_ .ca) { cl with nx := true, xa := 1 }) = false ∧ legal .core (.lds (at_ .ca) { cl with sp := 5 }) = false ∧
    legal .core (.sts (at_ .ca) { cl with sp := 3 }) = false ∧ legal .core (.ldvs (at_ .ca) cl) = false ∧
    legal .core (.stvs (at_ .ca) { cl7 with reg := 1536 }) = false ∧ legal .core (.spill (at_ .ca) { cl with sz := 2 }) = false ∧
    legal .core (.ld (at_ .ca) { ch with reg := 64 }) = false ∧ legal .core (.st (at_ .ca) { ch with lat := 1 }) = false ∧
    legal .lanA (.ld (at_ .ca) { ch with h := 1 }) = false ∧ legal .core (.ldv (at_ .ca) ch) = false ∧
    legal .core (.gset (at_ .ca) { ch with reg := 32 }) = false ∧ legal .core (.dld (at_ .ca) { ch7 with reg := 16 }) = false ∧
    legal .core (.lda (heldAt .ca) ch) = false ∧ legal .core (.stl (at_ .ca) { ch with sz := 7 }) = false ∧
    legal .core (.fence (at_ .ca) ⟨0⟩) = false ∧ legal .core (.mark (heldAt .ca)) = false ∧
    legal .core (.waitv (at_ .ca) { ca with xd := 6 }) = false ∧ legal .core (.aadd (at_ .ca) { ca with nr := true }) = false ∧
    legal .core (.aadd (at_ .ca) { ca with xc := 1 }) = false ∧ legal .core (.acas (at_ .ca) { ca with nr := true }) = false ∧
    legal .core (.afadd (at_ .ca) ca) = false ∧ legal .core (.aswapv (at_ .ca) ch) = false ∧
    legal .core (.cpy (at_ .ca) { ce with xs := 1 }) = false ∧ legal .core (.cwait (at_ .ca) { ce with eng := true }) = false ∧
    legal .core (.cpy2 (heldAt .ca) ce) = false ∧ legal .core (.xlat (at_ .ca) { ct with pd := 1 }) = false ∧
    legal .core (.hrel (at_ .ca) { ct with xa := 1 }) = false ∧ legal .core (.htest (at_ .ca) { ct with lg := true }) = false := by
  decide

/-- The steps of agents: an id that the panel does not have, a shape that the outside cannot give. -/
theorem test_wf_agents :
    legal .core (.queueSend (.lanA 8192) false) = false ∧ legal .core (.balloonTake 128) = false ∧
    legal .core (.peerRequest (.read 0 0 3)) = false ∧ legal .core (.peerRequest (.atomic 0 0 0x23 true 0 0)) = false ∧
    legal .core (.peerRequest (.waitv 0 0 6 true 0)) = false ∧ legal .core (.chimelinkLinkLoss 16) = false ∧
    legal .core (.lateFreeze (.core 8192)) = false ∧ legal .core (.copyChunk 0 2) = false ∧ legal .core (.leaseRecall 0 1040) = false ∧
    legal .core (.lanternHalt 8192) = false ∧ legal .core (.bellArrival 0 8) = false ∧ legal .core (.post 64) = false ∧
    legal .core (.launch hdr ⟨0, 0, 1, 1, false, true, 0, 0, 0, 0, 0⟩) = false ∧
    legal .core (.launchResume hdr ⟨0, 0, 1, 1, false, false, 0, 0, 0, 0, 0⟩) = false ∧
    legal .core (.copy { hdr with q := 64 } ⟨0, 0, 1⟩) = false ∧ legal .core (.contextSave 0 128) = false := by decide
theorem test_wf_outside :
    legal .core (.hostWindowRead 1 8) = false ∧ legal .core (.hostWindowWrite 4 (List.replicate 8 0)) = false ∧
    legal .core (.monctlWrite (.spire 0 8) 0) = false ∧ legal .core (.panelReset bring) = false ∧ legal .core (.routerReset 256) = false ∧
    legal .core (.uncorrectableEccError (.scratch 0 4 0)) = false := by
  refine ⟨?_, ?_, ?_, ?_, ?_, ?_⟩ <;> rfl

/-! ## Words written out from the encodings -/

/-- What stands behind an `Except` that holds a value. -/
theorem ok_of {e : Except (BitVec 8) Instr} {x : Instr} (h : e.toOption = some x) : e = .ok x := by
  cases e with
  | ok v => simpa [Except.toOption] using h
  | error _ => simp [Except.toOption] at h

/-- The prefix bits of R60: opcode, hold, predicate, sense, of a slot whose payload has n bits. -/
def word (n op : Nat) (payload : Nat) : Nat := op * 2 ^ (n + 6) + payload

/-- R67, R72: an S3 (DIVN x5, x6 peeked, x7 of 32 bits), an SI (ADDI, imm −1), an SQ (CMPLTN), an SL (MOVIZ). -/
theorem test_decode_sc_arith :
    decodeSlot .core .sc (word 39 0x0E (5 * 2 ^ 33 + 6 * 2 ^ 27 + 7 * 2 ^ 21 + 1 * 2 ^ 20 + 1 * 2 ^ 17)) =
      .ok (.divn (at_ .sc) ⟨5, 6, 7, true, false, 1, 0⟩) ∧
    decodeSlot .core .sc (word 39 0x28 (1 * 2 ^ 33 + 2 * 2 ^ 27 + 1 * 2 ^ 26 + 0xFFFFFF)) =
      .ok (.addi (at_ .sc) ⟨1, 2, true, 0, 0xFFFFFF⟩) ∧
    decodeSlot .core .sc (word 39 0x34 (9 * 2 ^ 35 + 3 * 2 ^ 29 + 4 * 2 ^ 23 + 1 * 2 ^ 21)) =
      .ok (.cmpltn (at_ .sc) ⟨9, 3, 4, false, true, 0⟩) ∧
    decodeSlot .core .sc (word 39 0x03 (63 * 2 ^ 33 + 0x80000001 * 2)) = .ok (.moviz (at_ .sc) ⟨63, 0x80000001⟩) := by
  refine ⟨ok_of ?_, ok_of ?_, ok_of ?_, ok_of ?_⟩ <;> decide

/-- R67, R72: predicate, loop, control and bell forms; a held slot under predicate 5 with sense set (R60). -/
theorem test_decode_sc_control :
    decodeSlot .core .sc (word 39 0x39 (2 * 2 ^ 35 + 3 * 2 ^ 31 + 4 * 2 ^ 27 + 1 * 2 ^ 25)) =
      .ok (.por (at_ .sc) ⟨2, 3, 4, false, true, 0, false⟩) ∧
    decodeSlot .core .sc (word 39 0x49 (0x123456 * 2 ^ 15 + 3 * 2 ^ 5)) = .ok (.lrun (at_ .sc) ⟨0x123456, 0, false, 3⟩) ∧
    decodeSlot .core .sc (word 39 0x50 (7 * 2 ^ 33 + 18 * 2 ^ 24 + 95 * 2 ^ 16)) = .ok (.rdcr (at_ .sc) ⟨7, false, 18, 95⟩) ∧
    decodeSlot .core .sc (word 39 0x52 (0x2A * 2 ^ 24)) = .ok (.trap (at_ .sc) ⟨0, 0, 0x2A⟩) ∧
    decodeSlot .core .sc (word 39 0x5A (6 * 2 ^ 36 + 11 * 2 ^ 32)) = .ok (.btest (at_ .sc) ⟨6, 11, 0⟩) ∧
    decodeSlot .core .sc (word 39 0x01 (2 ^ 44 + 5 * 2 ^ 40 + 2 ^ 39 + 1 * 2 ^ 33 + 8 * 2 ^ 13)) =
      .ok (.mov ⟨.sc, true, 5, true⟩ ⟨1, 0, 0, false, false, 0, 8⟩) := by
  refine ⟨ok_of ?_, ok_of ?_, ok_of ?_, ok_of ?_, ok_of ?_, ok_of ?_⟩ <;> decide

/-- R68, R73: VROT of 32-bit lanes by 3, VSHR by an immediate count, VSEL; a permute in VA is ILLEGAL_OP. -/
theorem test_decode_vector :
    decodeSlot .core .vb (word 51 0x45 (1535 * 2 ^ 40 + 0 * 2 ^ 29 + 1 * 2 ^ 18 + 1 * 2 ^ 16 + 6 * 2 ^ 12 + 3)) =
      .ok (.vrot (at_ .vb) ⟨1535, 0, 1, false, true, 6, 0, 3⟩) ∧
    decodeSlot .core .va (word 51 0x1D (4 * 2 ^ 40 + 1664 * 2 ^ 29 + 5 * 2 ^ 12 + 512 + 15)) =
      .ok (.vshr (at_ .va) ⟨4, 1664, 0, false, false, 5, 0, 527⟩) ∧
    decodeSlot .core .va (word 51 0x02 (1 * 2 ^ 40 + 2 * 2 ^ 29 + 3 * 2 ^ 18 + 4 * 2 ^ 7 + 8 * 2 ^ 3 + 1)) =
      .ok (.vsel (at_ .va) ⟨1, 2, 3, 4, 8, 0, true⟩) := by
  refine ⟨ok_of ?_, ok_of ?_, ok_of ?_⟩ <;> decide
theorem test_decode_permute_in_va :
    (match decodeSlot .core .va (word 51 0x40 (2 * 2 ^ 12)) with | .error cz => cz | .ok _ => 0) = 0x01 := by decide

/-- R69, R74, R161, R405: MDRAIN of F16 rounding down, TGATHER, TWHERE of TADD; two microinstructions. -/
theorem test_decode_matrix :
    decodeSlot .core .mx (word 31 0x05 (2 * 2 ^ 28 + 9 * 2 ^ 22 + 1 * 2 ^ 21 + 2 * 2 ^ 19)) =
      .ok (.mdrain (at_ .mx) ⟨2, 9, true, 2⟩) ∧
    decodeSlot .core .mx (word 31 0x21 (3 * 2 ^ 27 + 4 * 2 ^ 23 + 12 * 2 ^ 11 + 5 * 2 ^ 5)) =
      .ok (.tgather (at_ .mx) ⟨3, 4, 0, 12, 5, false⟩) ∧
    decodeSlot .core .mx (word 31 0x1D (1 * 2 ^ 27 + 2 * 2 ^ 23 + 3 * 2 ^ 19 + 0x10 * 2 ^ 11 + 6 * 2 ^ 5)) =
      .ok (.twhere (at_ .mx) ⟨1, 2, 3, 0x10, 6, false⟩) ∧
    decodeTableWord 32 (12 * 2 ^ 27) = some .usync ∧ decodeTableWord 32 (14 * 2 ^ 27) = none := by
  refine ⟨ok_of ?_, ok_of ?_, ok_of ?_, ?_, ?_⟩ <;> decide

/-- R70, R75: a local load, a handle load with bound 300 and disp −1, an atomic, a fence of all four orders, CWAIT. -/
theorem test_decode_channel :
    decodeSlot .core .ca (word 43 0x01 (17 * 2 ^ 32 + 2 * 2 ^ 29 + 3 * 2 ^ 23 + 1 * 2 ^ 22 + 5 * 2 ^ 18 + 0x3FFFF)) =
      .ok (.lds (at_ .ca) ⟨17, 2, 3, true, false, 5, 0x3FFFF⟩) ∧
    decodeSlot .core .cb (word 43 0x0A (1000 * 2 ^ 32 + 31 * 2 ^ 27 + 300 * 2 ^ 11 + 7 * 2 ^ 8 + 1 * 2 ^ 7 + 127)) =
      .ok (.ldv (at_ .cb) ⟨1000, 31, 0, false, 300, 7, true, 127⟩) ∧
    decodeSlot .core .ca (word 43 0x21 (1 * 2 ^ 37 + 2 * 2 ^ 32 + 3 * 2 ^ 26 + 4 * 2 ^ 20 + 5 * 2 ^ 14 + 511 * 2 ^ 5 + 2 ^ 4 + 6)) =
      .ok (.acas (at_ .ca) ⟨1, 2, 3, 4, 5, 511, true, false, 6⟩) ∧
    decodeSlot .lanA .ca (word 43 0x12 (15 * 2 ^ 39)) = .ok (.fence (at_ .ca) ⟨15⟩) ∧
    decodeSlot .core .ca (word 43 0x2C (7 * 2 ^ 26 + 8 * 2 ^ 17)) =
      .ok (.cwait (at_ .ca) ⟨false, 0, 0, 7, false, false, false, 8, 0, false⟩) := by
  refine ⟨ok_of ?_, ok_of ?_, ok_of ?_, ok_of ?_, ok_of ?_⟩ <;> decide

/-- R62: the check of the nine ASCII digits, which stand above the check's own 16 bits. -/
theorem test_crc : crcBits (0x313233343536373839 * 2 ^ 16) 72 0xFFFF = 0x29B1 := by decide

/-! ## States for the tests, and for each statement a state and operands that meet its hypotheses -/

/-- Landed entries of a queue. -/
def qof (k : QKind) (n : Nat) (vs : List V512) : QName × List Entry :=
  (⟨k, n⟩, vs.zipIdx.map (fun x => ⟨x.2, 0, some x.1, none⟩))

/-- A sequencer at cycle 10: x0 = 7, 3; x1 = 5; x2 = 5; x5 holds an entry that has not landed; v0 and v1 hold vectors. -/
def seq0 : Seq :=
  { Seq.empty with vcc := 10, nid := 9
                   queues := [qof .x 0 [7, 3], qof .x 1 [5], qof .x 2 [5], qof .x 3 [2 ^ 24 - 1], qof .x 4 [2 ^ 24],
                              (⟨.x, 5⟩, [⟨0, 0, none, none⟩]), (⟨.x, 6⟩, [⟨0, 0, some 1, some 256⟩]), qof .x 7 [1, 2, 3, 4],
                              qof .v 0 [0x0000000A_00000001], qof .v 1 [3], qof .v 2 [1]] }
def core0 : Core := { Core.fresh with mode := .run, seq := seq0 }
/-- Core 0 as given, alone at issue. -/
def on (k : Core) : State := State.reset.setCore 0 k
def s0 : State := on core0
/-- Core 0 with another sequencer. -/
def withSeq (q : Seq) : State := on { core0 with seq := q }

theorem test_meets_ScalarTwoSource : ∃ t id u, Ready (at_ .sc) 0 [.x 0 false, .x 1 true] s0 [7, 5] t ∧
    reserve t s0.cur.agent (xq s0 2) (s0.at + 1) = some (id, u) := ⟨_, _, _, ⟨by decide, by decide, rfl⟩, rfl⟩
theorem test_meets_ScalarOneSource : ∃ t id u, Ready (at_ .sc) 0 [.x 0 false] s0 [7] t ∧
    reserve t s0.cur.agent (xq s0 2) (s0.at + 1) = some (id, u) := ⟨_, _, _, ⟨by decide, by decide, rfl⟩, rfl⟩
/-- At equal operands "less or equal" holds and "less" does not. -/
theorem test_meets_ScalarCompare : (∃ t, Ready (at_ .sc) 0 [.x 1 false, .x 2 false] s0 [5, 5] t) ∧
    (∃ r ∈ sqRows, r.rel 64 (low 64 5) (low 64 5)) ∧ (∃ r ∈ sqRows, ¬ r.rel 64 (low 64 5) (low 64 5)) := by
  refine ⟨⟨_, by decide, by decide, rfl⟩, ⟨⟨.cmpeq, fun _ a b => a = b⟩, by simp [sqRows], rfl⟩,
    ⟨⟨.cmpne, fun _ a b => a ≠ b⟩, by simp [sqRows], by simp⟩⟩
theorem test_meets_PredicateForms : s0.Alone ∧ slotTrue (at_ .sc) 0 s0 = true ∧
    (∃ t, Ready (at_ .sc) 0 [.x 0 true] s0 [7] t) ∧ ∃ id u, reserve s0 s0.cur.agent (xq s0 2) (s0.at + 1) = some (id, u) :=
  ⟨by decide, by decide, ⟨_, by decide, by decide, rfl⟩, _, _, rfl⟩
/-- R113: 7 / 5 of ADD, DIV and REM, from the rule's own arithmetic; ADD pops its sources. -/
def xOut (i : Instr) (s : State) (n : Nat) : List (Option V512) :=
  match exec i s with
  | .next t => (t.entries s.cur.agent ⟨.x, n⟩).map (·.data)
  | _ => []
theorem test_add : xOut (.add (at_ .sc) ⟨10, 0, 1, false, false, 0, 0⟩) s0 10 = [some 12] := by decide
theorem test_add_pops : xOut (.add (at_ .sc) ⟨10, 0, 1, false, true, 0, 0⟩) s0 0 = [some 3] := by decide
/-- R113: 3 − 5 in 8 bits is 0xFE, sign-extended. -/
theorem test_sub_narrow : xOut (.sub (at_ .sc) ⟨10, 1, 0, false, false, 3, 0⟩) s0 10 = [some 0xFFFFFFFFFFFFFFFE] := by decide
/-- R114: division by zero gives all ones. -/
theorem test_div_zero : xOut (.div (at_ .sc) ⟨10, 0, 8, false, false, 0, 0⟩) (withSeq { seq0 with queues := qof .x 8 [0] :: seq0.queues }) 10 =
    [some 0xFFFFFFFFFFFFFFFF] := by decide
/-- R114: the most negative number by −1 is itself, in 16 bits. -/
theorem test_div_overflow : xOut (.div (at_ .sc) ⟨10, 0, 8, false, false, 2, 0⟩)
    (withSeq { Seq.empty with queues := [qof .x 0 [0x8000], qof .x 8 [0xFFFF]] }) 10 = [some 0xFFFFFFFFFFFF8000] := by decide
/-- R113: a rotation by the width changes nothing; a shift count is taken modulo the width. -/
theorem test_ror : xOut (.ror (at_ .sc) ⟨10, 0, 1, false, false, 3, 0⟩)
    (withSeq { Seq.empty with queues := [qof .x 0 [0x81], qof .x 1 [8]] }) 10 = [some 0x81] := by decide
theorem test_shl_count : xOut (.shl (at_ .sc) ⟨10, 0, 1, false, false, 1, 0⟩)
    (withSeq { Seq.empty with queues := [qof .x 0 [1], qof .x 1 [33]] }) 10 = [some 2] := by decide
/-- R112: MOVIH puts its immediate in the high half. -/
theorem test_movih : xOut (.movih (at_ .sc) ⟨10, 0xFFFFFFFF⟩) s0 10 = [some 0xFFFFFFFF00000000] := by decide

/-! Control transfers. -/

def rs (n : Nat) : State := withSeq { seq0 with rstack := List.replicate n 40 }
theorem test_meets_TransfersGoToTheirTarget :
    (rs 15).Alone ∧ slotTrue (at_ .sc) 0 (rs 15) = true ∧ (rs 15).cur.fin = false ∧ nestOf (rs 15) = none ∧
    (∃ u, ReadsTo (at_ .sc) [.x 3 false] (rs 15) [2 ^ 24 - 1] u) ∧ (2 ^ 24 - 1 : V512).toNat % 2 ^ 64 < 2 ^ 24 ∧
    ((rs 15).seq (rs 15).cur.agent).rstack.length < 16 ∧
    (((rs 1).seq (rs 1).cur.agent).rstack = 40 :: [] ∧ floorDepth (rs 1) ≤ [].length (α := Nat)) :=
  ⟨by decide, by decide, by decide, by decide, ⟨_, rfl⟩, by decide, by decide, by decide⟩
theorem test_meets_TransfersTrapAtTheirLimits :
    (rs 16).Alone ∧ slotTrue (at_ .sc) 0 (rs 16) = true ∧ (∃ u, ReadsTo (at_ .sc) [.x 4 false] (rs 16) [2 ^ 24] u) ∧
    2 ^ 24 ≤ (2 ^ 24 : V512).toNat % 2 ^ 64 ∧ 16 ≤ ((rs 16).seq (rs 16).cur.agent).rstack.length ∧
    ((rs 0).seq (rs 0).cur.agent).rstack = [] := ⟨by decide, by decide, ⟨_, rfl⟩, by decide, by decide, by decide⟩
/-- A nest from 5 to 9 entered at depth d, the bundle at pos, with the return stack st. -/
def nest (d : Nat) : ActNest := { start := 5, stop := 9, regs := [0], ext := [3], idx := [0], cnt := 3, d0 := d }
def inNest (d pos : Nat) (st : List Nat) : State :=
  let s := on { core0 with actNest := some (nest d), seq := { seq0 with rstack := st } }
  { s with cur := { s.cur with pos := pos } }
theorem test_meets_TransfersObeyTheNest :
    ((inNest 0 5 []).Alone ∧ slotTrue (at_ .sc) 0 (inNest 0 5 []) = true ∧ (inNest 0 5 []).cur.fin = false ∧
      (inNest 0 5 []).cur.agent = .core 0 ∧ nestOf (inNest 0 5 []) = some (nest 0) ∧
      (nest 0).d0 = ((inNest 0 5 []).core 0).seq.rstack.length ∧ ¬ ((nest 0).start ≤ 10 ∧ 10 ≤ (nest 0).stop) ∧
      ((nest 0).start ≤ 9 ∧ 9 ≤ (nest 0).stop)) ∧
    (nestOf (inNest 0 30 [40]) = some (nest 0) ∧ (nest 0).d0 < ((inNest 0 30 [40]).core 0).seq.rstack.length) ∧
    (nestOf (inNest 0 9 []) = some (nest 0) ∧ ((inNest 0 9 []).core 0).seq.rstack.length < 16 ∧
      (inNest 0 9 []).cur.pos = (nest 0).stop) ∧
    (nestOf (inNest 1 30 [5]) = some (nest 1) ∧ ((inNest 1 30 [5]).core 0).seq.rstack = 5 :: [] ∧
      (nest 1).d0 = [].length (α := Nat) + 1 ∧ (nest 1).start ≤ 5 ∧ 5 ≤ (nest 1).stop) := by decide
/-- A pending nest of one place, its extent n. -/
def withPend (n : Nat) : State :=
  let s := on { core0 with pendNest := .set [(0, 2, n)] }
  { s with cur := { s.cur with next := 6 } }
theorem test_meets_LoopForms :
    ((withPend 3).Alone ∧ slotTrue (at_ .sc) 0 (withPend 3) = true ∧ (withPend 3).cur.agent = .core 0 ∧
      inHandler ((withPend 3).core 0) = false ∧ ((withPend 3).core 0).actNest = none ∧ (withPend 3).cur.next ≤ 6 ∧
      (withPend 3).cur.fin = false) ∧
    (∃ u, ReadsTo (at_ .sc) [.x 3 false] (withPend 3) [2 ^ 24 - 1] u) ∧
    (∃ regs ext idx, pendStart ((withPend 3).core 0).pendNest 1 = some (regs, ext, idx, 3)) ∧
    (∃ regs ext idx, pendStart ((withPend 0).core 0).pendNest 1 = some (regs, ext, idx, 0)) ∧
    ((inNest 0 5 []).core 0).actNest.isSome = true :=
  ⟨by decide, ⟨_, rfl⟩, ⟨_, _, _, rfl⟩, ⟨_, _, _, rfl⟩, by decide⟩
/-- An LSET in an active nest, and one of an extent of 2^32. -/
theorem test_meets_Lset_faults :
    (∃ u, ReadsTo (at_ .sc) [.x 3 false] (inNest 0 5 []) [2 ^ 24 - 1] u) ∧
    (let s := withSeq { seq0 with queues := qof .x 8 [2 ^ 32] :: seq0.queues }
     (∃ u, ReadsTo (at_ .sc) [.x 8 false] s [2 ^ 32] u) ∧ inHandler (s.core 0) = false ∧ 2 ^ 32 ≤ (2 ^ 32 : V512).toNat % 2 ^ 64) :=
  ⟨⟨_, rfl⟩, ⟨_, rfl⟩, by decide, by decide⟩
theorem test_meets_ControlRegisters : s0.Alone ∧ slotTrue (at_ .sc) 0 s0 = true ∧ s0.cur.agent = .core 0 ∧
    (19 : BitVec 8).toNat < 20 ∧ (∃ id u, reserve s0 s0.cur.agent (xq s0 8) (s0.at + 1) = some (id, u)) ∧
    ∃ t, Ready (at_ .sc) 0 [.x 0 false] s0 [7] t :=
  ⟨by decide, by decide, by decide, by decide, ⟨_, _, rfl⟩, _, by decide, by decide, rfl⟩
/-- A core in its handler: UISTAT bit [4] set, its position kept. -/
def inH : State := on { core0 with uistat := 24, handlerPos := 33, handlerDepth := 0 }
theorem test_meets_TrapAndUiret : s0.Alone ∧ slotTrue (at_ .sc) 0 s0 = true ∧ s0.cur.agent = .core 0 ∧
    inHandler (s0.core 0) = false ∧
    (inH.Alone ∧ slotTrue (at_ .sc) 0 inH = true ∧ inHandler (inH.core 0) = true ∧ inH.cur.fin = false ∧ (inH.core 0).mode = .run ∧
      shadowLanded (inH.core 0) = true ∧ (inH.core 0).savedWaits = []) := by decide
/-- R128: a 1 in bit [0] clears that pending bit, bit [3] enables. -/
theorem test_uistat_write : ((applyWr (on { core0 with uistat := 3 }) (.core 0) (.uistat 9)).core 0).uistat = 10 := by decide
/-- R129, R377: TRAP 5 traps with cause 0x85 in the SC slot's byte, EPC at the next position. -/
theorem test_trap : (match exec (.trap (at_ .sc) { sn with code := 5 }) { s0 with cur := { s0.cur with next := 77 } } with
    | .next t => ((t.core 0).epc.toNat, (t.core 0).cause.toNat / 2 ^ 40) | _ => (0, 0)) = (77, 0x85) := by decide
/-- R120: CALL pushes the next position. -/
theorem test_call : (match exec (.call (at_ .sc) { sj with target := 100 }) { s0 with cur := { s0.cur with next := 7 } } with
    | .next t => ((t.core 0).seq.pos, (t.core 0).seq.rstack) | _ => (0, [])) = (100, [7]) := by decide

/-! The Carillon and the marks. -/

def image0 : Image :=
  { id := 7, entry := 0, code := [0], dict := [], routines := [], spill := 0, nestD := 1, perm := [0], indirect := 0, ext := [3],
    extAddr := [0], pages := [], lantA := none, lantE := none }
def launchCmd0 : LaunchCmd := ⟨0, 0, 1, 1, false, false, 0, 0, 0, 0, 0⟩
/-- A launch of core 0 alone. -/
def launch0 : Launch :=
  { hdr := hdr, cmd := launchCmd0, image := image0, cores := [0], active := [0], lantDomes := [], pairs := [], pairsLeft := [],
    detMode := false, lead := 6, replicas := [], released := true, vcc0 := 0, bells := [(3, Peal.start [0])], ending := none,
    preempt := none, saved := [] }
/-- Core 0 under launch 1, with bell 3 as given. -/
def withBell (b : BellSt) (held : List BellHeld) (L : Launch) : State :=
  { on { core0 with launch := some 1, bells := [(3, b)], bellHeld := held } with launches := [(1, L)] }
def bell0 : State := withBell BellSt.start [] launch0
def bell1 : State := withBell { BellSt.start with arrived := true, count := 1 } [⟨3, 0, 10, []⟩] launch0
def bell2 : State :=
  withBell { BellSt.start with arrived := true, count := 1, sent := 1 } [] { launch0 with bells := [(3, { Peal.start [0] with arrived := [0] })] }
theorem test_meets_BellForms :
    (bell0.Alone ∧ slotTrue (at_ .sc) 0 bell0 = true ∧ bell0.cur.agent = .core 0 ∧ ((bell0.core 0).bell 3).excused = false ∧
      ((bell0.core 0).bell 3).arrived = false ∧ ((bell0.core 0).bell 3).sent ≤ ((bell0.core 0).bell 3).count ∧
      (bell0.core 0).launch = some 1 ∧ look bell0.launches 1 = some launch0) ∧
    (bell1.Alone ∧ slotTrue (at_ .sc) 0 bell1 = true ∧ bell1.cur.agent = .core 0 ∧ ((bell1.core 0).bell 3).excused = false ∧
      ((bell1.core 0).bell 3).arrived = true) := by decide
theorem test_meets_BellsRelease :
    ((bell1.core 0).bellHeld.find? (fun h => h.bell == 3) = some ⟨3, 0, 10, []⟩ ∧ arrivalReady (bell1.core 0) ⟨3, 0, 10, []⟩ = true ∧
      (bell1.core 0).launch = some 1 ∧ look bell1.launches 1 = some launch0) ∧
    (∃ L, look bell2.launches 1 = some L ∧ L.detMode = false ∧ (L.bell 3).parts ≠ [] ∧ (L.bell 3).parts.Nodup ∧
      (∀ d ∈ (L.bell 3).parts, d ∈ (L.bell 3).arrived) ∧
      (∀ d ∈ (L.bell 3).parts, (bell2.core d).launch = some 1 ∧ (bell2.core d).mode = .run ∧ (bell2.core d).waits = [])) :=
  ⟨by decide, _, rfl, by decide, by decide, by decide, by decide, by decide⟩
theorem test_meets_BundleMarks : s0.cur.agent = .core 0 ∧ (s0.core 0).quiet = none ∧ (s0.core 0).mode = .run ∧ (s0.core 0).waits = [] ∧
    ((on { core0 with quiet := some 256 }).core 0).quiet = some 256 ∧ 256 ≤ 256 := by decide
/-- R363: the release of bell 3 advances its generation. -/
theorem test_bell_release : (match exec (.bellRelease 1 3) bell2 with
    | .next t => (((t.core 0).bell 3).gen, (t.core 0).uistat.toNat) | _ => (0, 0)) = (1, 4) := by decide

/-! Vector forms. -/

theorem test_meets_VectorTwoSource : ∃ t id u, Ready (at_ .va) (laneBytes 2) [.v ⟨0, false, 2⟩, .v ⟨1, true, 2⟩] s0
      [0x0000000A_00000001, 3] t ∧ reserve t s0.cur.agent ⟨.v, 9⟩ (s0.at + 4) = some (id, u) :=
  ⟨_, _, _, ⟨by decide, by decide, rfl⟩, rfl⟩
theorem test_meets_VectorOneSource : ∃ t id u, Ready (at_ .va) (laneBytes 2) [.v ⟨0, false, 2⟩] s0 [0x0000000A_00000001] t ∧
    reserve t s0.cur.agent ⟨.v, 9⟩ (s0.at + 2) = some (id, u) := ⟨_, _, _, ⟨by decide, by decide, rfl⟩, rfl⟩
theorem test_meets_VectorThreeSource : ∃ t, Ready (at_ .va) (laneBytes 2)
    [.v ⟨0, false, 2⟩, .v ⟨1, false, 2⟩, .v ⟨2, false, 2⟩] s0 [0x0000000A_00000001, 3, 1] t := ⟨_, by decide, by decide, rfl⟩
/-- Both count forms: aux bit [9] clear, and set with the largest count of a 64-bit lane. -/
theorem test_meets_VectorShifts :
    ((0 : BitVec 10).getLsbD 9 = false ∧ ∃ t, Ready (at_ .va) (laneBytes 2) [.v ⟨0, false, 2⟩, .v ⟨1, false, 2⟩] s0
      [0x0000000A_00000001, 3] t) ∧
    ((575 : BitVec 10).getLsbD 9 = true ∧ ∃ t, Ready (at_ .va) (laneBytes 7) [.v ⟨0, false, 7⟩] s0 [0x0000000A_00000001] t) :=
  ⟨⟨by decide, _, by decide, by decide, rfl⟩, by decide, _, by decide, by decide, rfl⟩
theorem test_meets_VectorReductions : isInt 2 = true ∧ ∃ t, Ready (at_ .va) (laneBytes 2) [.v ⟨0, false, 2⟩] s0
    [0x0000000A_00000001] t := ⟨by decide, _, by decide, by decide, rfl⟩
theorem test_meets_VectorConversions :
    (∃ t, Ready (at_ .va) (laneBytes ((10 : BitVec 10).setWidth 4)) [.v ⟨0, false, 2⟩] s0 [0x0000000A_00000001] t) ∧
    (∃ t, Ready (at_ .va) 4 [.v ⟨0, false, tyN8⟩, .v ⟨1, false, tyN8⟩] s0 [0x0000000A_00000001, 3] t) ∧
    (∃ t, Ready (at_ .va) 4 [.v ⟨0, false, tyF32⟩, .v ⟨1, false, tyF32⟩] s0 [0x0000000A_00000001, 3] t) ∧
    (∃ t id u, s0.cur.agent = .core 0 ∧ (9 : BitVec 11).toNat ≠ 1663 ∧
      Ready (at_ .va) 1 [.v ⟨0, false, tyF32⟩, .v ⟨1, false, tyN8⟩] s0 [0x0000000A_00000001, 3] t ∧
      reserve t s0.cur.agent ⟨.v, 9⟩ (s0.at + 4) = some (id, u)) :=
  ⟨⟨_, by decide, by decide, rfl⟩, ⟨_, by decide, by decide, rfl⟩, ⟨_, by decide, by decide, rfl⟩,
    _, _, _, by decide, by decide, ⟨by decide, by decide, rfl⟩, rfl⟩
/-- Lane k of what an instruction pushes into a vector queue, on two vectors a and b in v0 and v1. -/
def vOut (i : Instr) (a b : V512) (w k : Nat) : Option Nat :=
  match exec i (withSeq { Seq.empty with queues := [qof .v 0 [a], qof .v 1 [b]] }) with
  | .next t => ((t.entries (.core 0) ⟨.v, 9⟩).head?.bind (·.data)).map (fun v => getLane w v k)
  | _ => none
/-- R137: VADDS holds the sum of signed bytes at 127. -/
theorem test_vadds : vOut (.vadds (at_ .va) { v2 with vd := 9, ty := 0 }) 0x7F 1 1 0 = some 0x7F := by decide
/-- R137: 1.5 + 0.25 in F32 lanes is 1.75. -/
theorem test_vadd_f32 : vOut (.vadd (at_ .va) { v2 with vd := 9, ty := 10 }) 0x3FC00000 0x3E800000 4 0 = some 0x3FE00000 := by decide
/-- R140: the minimum of −0 and +0 is −0. -/
theorem test_vmin_zero : vOut (.vmin (at_ .va) { v2 with vd := 9, ty := 10 }) 0 0x80000000 4 0 = some 0x80000000 := by decide
/-- R141: an arithmetic shift by a lane's own count, taken modulo the lane width. -/
theorem test_vsar : vOut (.vsar (at_ .va) { v2 with vd := 9, ty := 1 }) 0x8000 17 2 0 = some 0xC000 := by decide
/-- R143: −1.5 in F32 to a signed 32-bit lane, toward zero. -/
theorem test_vcvt : vOut (.vcvt (at_ .va) { v1 with vd := 9, ty := 10, rm := 1, aux := 2 }) 0xBFC00000 0 4 0 = some 0xFFFFFFFF := by decide
/-- R147: the sum of the 64-bit lanes stands in lane 0. -/
theorem test_vredadd : vOut (.vredadd (at_ .va) { v1 with vd := 9, ty := 3 }) (5 * 2 ^ 64 + 6) 0 8 0 = some 11 := by decide
/-- R151: VROT by 3 of 32-bit lanes takes lane 3 first and b behind a. -/
theorem test_vrot : vOut (.vrot (at_ .vb) { v2 with vd := 9, aux := 3 }) (0x77 * 2 ^ 96) 0x55 4 0 = some 0x77 ∧
    vOut (.vrot (at_ .vb) { v2 with vd := 9, aux := 3 }) 0 0x55 4 13 = some 0x55 := by decide

/-! What every slot does. -/

def offP : Pre := ⟨.sc, false, 1, false⟩
theorem test_meets_SlotThatIsNotTrue : preOf (.add offP s3) = some offP ∧ s0.Alone ∧ slotTrue offP (laneOf (.add offP s3)) s0 = false ∧
    Wait.uiret ∉ (s0.core (coreOf s0.cur.agent)).waits := by decide
/-- A scalar head, a vector head, a broadcast's head, and a constant. -/
theorem test_meets_Sources :
    (HeadIs s0 (s0.xq s0.cur.agent 0) 7 [⟨1, 0, some 3, none⟩]) ∧ ((0 : BitVec 11).toNat ≤ 1535 ∧ HeadIs s0 ⟨.v, 0⟩ 0x0000000A_00000001 []) ∧
    (1600 ≤ (1600 : BitVec 11).toNat ∧ (1600 : BitVec 11).toNat ≤ 1663 ∧
      HeadIs s0 (s0.xq s0.cur.agent ((1600 : BitVec 11).toNat - 1600)) 7 [⟨1, 0, some 3, none⟩]) ∧ 1664 ≤ (1664 : BitVec 11).toNat :=
  ⟨⟨_, rfl, rfl, by decide, rfl⟩, ⟨by decide, _, rfl, rfl, by decide, rfl⟩, ⟨by decide, by decide, _, rfl, rfl, by decide, rfl⟩, by decide⟩
/-- Stream register 31: 16 elements of 8 bits that end with AMEM's last byte, or one byte after it; without a pattern; poisoned. -/
def strm (start : Nat) (po : Option Nat) : Stream := { w := 8, n := 4, period := 32, first := 0, start := start, pos := 0, poison := po }
def strmS (l : List (Nat × Stream)) : State := on { core0 with streams := l }
theorem test_meets_Streams :
    (let s := strmS [(31, strm 524272 none)]
     look (s.core 0).streams 31 = some (strm 524272 none) ∧ (1567 : BitVec 11).toNat = 1536 + 31 ∧ s.bad = [] ∧
       ∀ i, i < laneCount 2 → 8 * 524272 + (0 + (0 + i) / 4 * 32 + (0 + i) % 4 * 8) + 8 ≤ 8 * 524288) ∧
    (strmS []).Alone ∧ slotTrue (at_ .va) (laneBytes 2) (strmS []) = true ∧ look ((strmS []).core 0).streams 31 = none ∧
    (15 < laneCount 2 ∧ 8 * 524288 < 8 * 524273 + (0 + (0 + 15) / 4 * 32 + (0 + 15) % 4 * 8) + 8) ∧
    look ((strmS [(31, strm 0 (some 256))]).core 0).streams 31 = some (strm 0 (some 256)) := by decide
/-- An empty queue, an entry not landed, a poisoned entry, and a full destination. -/
theorem test_meets_QueueMisuse :
    s0.Alone ∧ slotTrue (at_ .sc) 0 s0 = true ∧ s0.cur.agent = .core 0 ∧ s0.entries (.core 0) (xq s0 9) = [] ∧
    s0.entries (.core 0) (xq s0 5) = ⟨0, 0, none, none⟩ :: [] ∧ s0.entries (.core 0) (xq s0 6) = ⟨0, 0, some 1, some 256⟩ :: [] ∧
    (0 ≤ s0.at) ∧ (∃ t, ReadsTo (at_ .sc) [.x 0 false, .x 1 false] s0 [7, 5] t ∧ 4 ≤ (t.entries (.core 0) (xq s0 7)).length) :=
  ⟨by decide, by decide, by decide, by decide, by decide, by decide, by decide, _, rfl, by decide⟩
theorem test_meets_Frames :
    (∃ t, s0.cur.agent = .core 0 ∧ ReadsTo (at_ .sc) [.x 0 false, .x 1 false] s0 [7, 5] t) ∧
    (∃ id u, reserve s0 (.core 0) ⟨.x, 2⟩ 11 = some (id, u) ∧ ∀ e ∈ s0.entries (.core 0) ⟨.x, 2⟩, e.id < (s0.core 0).seq.nid) ∧
    (∃ t, preOf (.add (at_ .sc) s3) = some (at_ .sc) ∧ s0.cur.phase = .whole ∧ exec (.add (at_ .sc) s3) s0 = .next t) :=
  ⟨⟨_, by decide, rfl⟩, ⟨_, _, rfl, by decide⟩, _, by decide, by decide, rfl⟩
/-- An IBUF_ERROR that is reloaded; a miss with a snapshot, rolled back; a fault that is reported. -/
theorem test_meets_Traps : FRec.none.found = 0 ∧ ((s0.core 0).ibufAt ≠ some 4) ∧
    (let k := (on { core0 with snap := some (takeSnap 0 core0) }).core 0
     inHandler (s0.core 0) = false ∧ (0x0E : BitVec 8) ≠ 0x12 ∧ FRec.none.kind ≠ 3 ∧ k.detMode = false ∧ k.snap.isSome ∧ inHandler k = false) := by decide

/-! The matrix unit. -/

def mxOn (m : Matrix) : State := on { core0 with mx := m }
/-- A drain word (R167): one row of 32 columns from row 0 to AMEM byte 0, stride 128; and one whose count of rows is zero. -/
def drainW : W64 := 1 * 2 ^ 9 + 1 * 2 ^ 19 + 2 * 2 ^ 22 + 2 * 2 ^ 48
def badDrainW : W64 := 1 * 2 ^ 19 + 2 * 2 ^ 22 + 2 * 2 ^ 48
/-- A ring word (R158): AMEM, format 0, klen 1, one row, one tile, base 0; and one without a tile. -/
def ringW : W64 := 1 + 1 * 2 ^ 13 + 1 * 2 ^ 22
def badRingW : W64 := 1 + 1 * 2 ^ 13
/-- Core 0 with a word in x8 and a matrix unit. -/
def mxWord (w : V512) (m : Matrix) : State := on { core0 with mx := m, seq := { seq0 with queues := qof .x 8 [w] :: seq0.queues } }
def mxQ (n : Nat) : Matrix := { Matrix.empty with queue := List.replicate n (.madv 0 1), user := [(64, [0])] }
theorem test_meets_MatrixSlots :
    ((mxOn (mxQ 7)).Alone ∧ slotTrue (at_ .mx) 0 (mxOn (mxQ 7)) = true ∧ (mxOn (mxQ 7)).cur.agent = .core 0 ∧
      (routineCode ((mxOn (mxQ 7)).mx 0) 64).isSome ∧ routineCode ((mxOn (mxQ 7)).mx 0) 255 = none ∧
      ((mxOn (mxQ 7)).mx 0).queue.length < 8) ∧ 8 ≤ ((mxOn (mxQ 8)).mx 0).queue.length ∧
    (∃ t, ReadsTo (at_ .mx) [.x 8 false] (mxWord (drainW.setWidth 512) (mxQ 0)) [drainW.setWidth 512] t ∧
      drainOk 0 (drainOf ((drainW.setWidth 512).setWidth 64)) = true) ∧
    (∃ t, ReadsTo (at_ .mx) [.x 8 false] (mxWord (badDrainW.setWidth 512) (mxQ 0)) [badDrainW.setWidth 512] t ∧
      drainOk 0 (drainOf ((badDrainW.setWidth 512).setWidth 64)) = false) ∧
    (∃ t, ReadsTo (at_ .mx) [.v ⟨0, false, 7⟩] (mxOn (mxQ 0)) [0x0000000A_00000001] t) :=
  ⟨by decide, by decide, ⟨_, rfl, by decide⟩, ⟨_, rfl, by decide⟩, _, rfl⟩

def confA : RingConf := { sp := 1, fmt := 0, klen := 1, trows := 1, ntile := 1, base := 0 }
def confB : RingConf := { sp := 2, fmt := 0, klen := 1, trows := 1, ntile := 1, base := 0 }
/-- Both rings configured, with t tiles advanced in each. -/
def mxRings (t : Nat) : List (Nat × Ring) := [(0, { conf := some confA, head := 0, tail := t }), (1, { conf := some confB, head := 0, tail := t })]
/-- A unit that runs command m. -/
def mxRuns (m : MCmd) (rs : List (Nat × Ring)) : Matrix := { Matrix.empty with queue := [m], issued := 1, running := true, rings := rs }
theorem runs_of {s : State} {m : MCmd} (h : (s.mx 0).queue = [m] ∧ (s.mx 0).running = true ∧ mxReady s 0 = true) : Runs s 0 m :=
  ⟨⟨[], h.1⟩, h.2⟩
theorem test_meets_MatrixCommandStart :
    ((mxOn (mxQ 1)).mx 0).queue = .madv 0 1 :: [] ∧ ((mxOn (mxQ 1)).mx 0).running = false ∧ mxReady (mxOn (mxQ 1)) 0 = true := by decide
theorem test_meets_Mring : Runs (mxOn (mxRuns (.mring 0 ringW) [])) 0 (.mring 0 ringW) := runs_of (by decide)
theorem test_meets_Mring_words : ringOk ringW = true ∧ ringOk badRingW = false := by decide
/-- An MADV that fills its ring, and one on a full ring. -/
theorem test_meets_Madv : Runs (mxOn (mxRuns (.madv 0 1) (mxRings 0))) 0 (.madv 0 1) ∧ Runs (mxOn (mxRuns (.madv 0 1) (mxRings 1))) 0 (.madv 0 1) :=
  ⟨runs_of (by decide), runs_of (by decide)⟩
theorem test_meets_Madv_room : let s := mxOn (mxRuns (.madv 0 1) (mxRings 0)); let t := mxOn (mxRuns (.madv 0 1) (mxRings 1))
    confOf s 0 0 = some confA ∧ (ringAt (s.mx 0) 0).held + 1 ≤ confA.ntile ∧
    confOf t 0 0 = some confA ∧ confA.ntile < (ringAt (t.mx 0) 0).held + 1 := by decide
theorem test_meets_McallStart : Runs (mxOn (mxRuns (.mcall 64 0 1 []) (mxRings 1))) 0 (.mcall 64 0 1 []) := runs_of (by decide)
theorem test_meets_McallStart_rings : let s := mxOn (mxRuns (.mcall 64 0 1 []) (mxRings 1))
    (s.mx 0).mseq = none ∧ ringsSuit (ringAt (s.mx 0) 0) (ringAt (s.mx 0) 1) = true ∧
    ringsSuit (ringAt (s.mx 0) 0) (ringAt (s.mx 0) 2) = false := by decide
/-- A drain of its only row; the first of two rows, and the same where the core stops. -/
def drainW2 : W64 := drainW + 1 * 2 ^ 9
theorem test_meets_Mdrain : ∀ s ∈ [mxOn (mxRuns (.mdrain 0 0 drainW2) []), on { core0 with mx := mxRuns (.mdrain 0 0 drainW2) [], mode := .stop false },
      mxOn { mxRuns (.mdrain 0 0 drainW2) [] with drained := 1 }],
    (s.mx 0).queue = .mdrain 0 0 drainW2 :: [] ∧ drainReady s 0 = true ∧ drainOk 0 (drainOf drainW2) = true ∧
      (s.mx 0).drained < (drainOf drainW2).nrow ∧ s.bad = [] ∧ s.memOk := by decide
theorem test_meets_Mdrain_ends : (drainOf drainW2).nrow = 2 ∧ stopping core0 = false ∧ stopping { core0 with mode := .stop false } = true := by decide
theorem test_meets_DeferredMatrixFault : let s := mxOn { Matrix.empty with fault := some (0x0C, 5) }
    (s.mx 0).fault = some (0x0C, 5) ∧ atBoundary s 0 = true ∧ s.frozen (.core 0) = false ∧ (0x0C : BitVec 8) ≠ 0x12 ∧ (0x0C : BitVec 8) ≠ 0x0E ∧ (0x0C : BitVec 8) ≠ 0x0F ∧
      (0x0C : BitVec 8) ≠ 0x10 := by decide

/-- A microsequencer at position p of routine 64, with loops l, bank 0 as given. -/
def seqAt (p : Nat) (l : List (Nat × Nat)) (b : Option Bank) : MSeq :=
  { routine := 64, ra := 0, rb := 1, ks := [2 ^ 32], pos := p, loops := l, acur := 0, ccur := 0, ta := 0, tb := 0, touchA := false,
    touchB := false, modeA := false, scaleA := 0, modeB := false, scaleB := 0, bank0 := b, bank1 := none, wrEnd := 0 }
/-- Core 0 whose sequencer stands at m, its routine being ULOOP, UNOP, UENDL, UNOP. -/
def atM (m : MSeq) (rs : List (Nat × Ring)) : State :=
  mxOn { Matrix.empty with queue := [.mcall 64 0 1 []], issued := 1, running := true, mseq := some m, rings := rs,
                           user := [(64, [0x40000000, 0, 0x48000000, 0])] }
theorem test_meets_Microinstructions :
    AtMicro (atM (seqAt 0 [(1, 1)] none) []) 0 (seqAt 0 [(1, 1)] none) ∧ (seqAt 0 [(1, 1)] none).loops = (1, 1) :: [] ∧ 1 ≤ 1 ∧
    (seqAt 0 [(1, 2)] none).loops = (1, 2) :: [] ∧ 1 < 2 := by decide
/-- Loop counts of 1, of 0 with the loop's words standing behind it, and of 2^32 by a k register. -/
theorem test_meets_Uloop : 0 < (1 : BitVec 16).toNat ∧ (0 : BitVec 16).toNat = 0 ∧
    2 ^ 32 ≤ (0 : BitVec 16).toNat + ((seqAt 0 [] none).ks.getD 0 0).toNat := by decide
theorem test_meets_Uloop_words :
    routineCode ((atM (seqAt 0 [] none) []).mx 0) 64 = some ([0x40000000#32] ++ [0#32] ++ 0x48000000#32 :: [0#32]) ∧
    [0x40000000#32].length = (seqAt 0 [] none).pos + 1 ∧ (0#32).toNat / 2 ^ 27 ≠ 8 ∧ (0#32).toNat / 2 ^ 27 ≠ 9 ∧
    (0x48000000#32).toNat / 2 ^ 27 = 9 := by decide
theorem test_meets_MicroSyncAndReturn : let s := atM (seqAt 0 [] none) (mxRings 1)
    AtMicro s 0 (seqAt 0 [] none) ∧ (s.mx 0).loadEnd ≤ s.vccOf 0 ∧ (seqAt 0 [] none).wrEnd = 0 ∧
      (seqAt 0 [] none).ra ≠ (seqAt 0 [] none).rb := by decide
theorem test_meets_Ufetb :
    (let s := atM (seqAt 0 [] none) (mxRings 1)
     s.cur.agent = .core 0 ∧ (s.mx 0).mseq = some (seqAt 0 [] none) ∧ ufetbReady s 0 false (seqAt 0 [] none) = true ∧
       confOf s 0 1 = some confB ∧ 0 < (ringAt (s.mx 0) 1).held) ∧
    (let s := atM (seqAt 0 [] none) (mxRings 0)
     ufetbReady s 0 false (seqAt 0 [] none) = true ∧ confOf s 0 1 = some confB ∧ (ringAt (s.mx 0) 1).held ≤ 0) ∧
    (ufetbReady (atM (seqAt 0 [] none) []) 0 false (seqAt 0 [] none) = true ∧ confOf (atM (seqAt 0 [] none) []) 0 1 = none) := by decide
/-- UZACC of one row, of the last row alone, and of none. -/
theorem test_meets_Uzacc : let s := atM (seqAt 0 [] none) []
    AtMicro s 0 (seqAt 0 [] none) ∧ s.memOk ∧ 1 ≤ (1 : BitVec 10).toNat ∧ (0 : Int) ≤ (seqAt 0 [] none).ccur ∧
      (seqAt 0 [] none).ccur + 1 ≤ 512 ∧ (0 : BitVec 10).toNat = 0 ∧ (512 : Int) < (seqAt 0 [] none).ccur + 513 := by decide
/-- A bank whose tile is to be read, with a row that is formed and not yet written, in a core of either mode. -/
theorem test_meets_LoadedBanks : let k : Bank := { tile := 0, ready := 10, bytes := none }
    ∀ det ∈ [true, false], let m := seqAt 0 [] (some k)
      let s := on { core0 with detMode := det, mx := { Matrix.empty with mseq := some m, rings := mxRings 1, writes := [⟨12, 3, [some 7]⟩] } }
      (s.mx 0).mseq = some m ∧ (s.mx 0).fault = none ∧ bankGet m false = some k ∧ k.bytes = none ∧ k.ready ≤ s.vccOf 0 ∧
        confOf s 0 m.rb = some confB ∧ s.bad = [] ∧ s.memOk := by decide
def bankB : Bank := { tile := 0, ready := 0, bytes := some (List.replicate 128 0) }
/-- UMAC of one row, with a tile in its A ring and with none; of no row. -/
theorem test_meets_Umac : let m := seqAt 0 [] (some bankB)
    bankGet m false = some bankB ∧ bankB.bytes = some (List.replicate 128 0) ∧ 1 ≤ (1 : BitVec 10).toNat ∧ (1 : BitVec 10).toNat ≤ 512 ∧
    0 ≤ m.ccur ∧ m.ccur + 1 ≤ 512 ∧ 0 ≤ m.acur ∧ m.acur + 1 ≤ confA.trows ∧ ¬ 1 ≤ (0 : BitVec 10).toNat ∧
    (∀ n ∈ [0, 1], let s := atM m (mxRings n)
      AtMicro s 0 m ∧ bankB.ready ≤ s.vccOf 0 ∧ confOf s 0 m.ra = some confA ∧ confOf s 0 m.rb = some confB ∧ s.bad = []) ∧
    m.ta < (ringAt ((atM m (mxRings 1)).mx 0) m.ra).held ∧ (ringAt ((atM m (mxRings 0)).mx 0) m.ra).held ≤ m.ta := by decide
/-- The second of two rows of a UZACC and of a UMAC; a row that is to be written in the present cycle, its first word uncorrectable. -/
def rowsOn (mac : Bool) : MRows := { mac := mac, from_ := 0, count := 2, done := 1, pos := 0, bank := false, arow := 0, crow := 3 }
def wr0 : MWrite := { due := 0, crow := 3, words := [none, some 7] }
def rowsS (mac : Bool) : State :=
  let m := seqAt 0 [] (some bankB)
  mxOn { Matrix.empty with queue := [.mcall 64 0 1 []], issued := 1, running := true, mseq := some m, rings := mxRings 1,
                           rows := some (rowsOn mac), writes := [wr0] }
theorem test_meets_MatrixRows : ∀ mac ∈ [true, false], let s := rowsS mac; let m := seqAt 0 [] (some bankB)
    (s.mx 0).mseq = some m ∧ (s.mx 0).rows = some (rowsOn mac) ∧ (s.mx 0).fault = none ∧ (rowsOn mac).done < (rowsOn mac).count ∧
    (rowsOn mac).from_ + (rowsOn mac).done ≤ s.vccOf 0 ∧ (rowsOn mac).mac = mac ∧ s.memOk ∧ bankGet m (rowsOn mac).bank = some bankB ∧
    confOf s 0 m.ra = some confA ∧ confOf s 0 m.rb = some confB ∧ s.bad = [] ∧ (s.mx 0).writes = wr0 :: [] ∧ wr0.due ≤ s.vccOf 0 := by decide
theorem test_meets_PerformRows : (∀ x ∈ ([] : List MWrite), (rowsS false).vccOf 0 < x.due) ∧ wr0.words[1]? = some (some 7) ∧ wr0.words[0]? = some none ∧
    (rowsS true).memOk := by decide
/-- R162, R169: a row is written in its cycle, and a word that has no value is marked again. -/
theorem test_row_written : let t := performRows 0 (rowsS false)
    (t.mem.num (cmemAt 0 3 1) 4, t.bad, (t.mx 0).writes.length) = (7, [cmemAt 0 3 0], 0) := by decide
/-- R162: USCA sets the mode and the scale of A. -/
theorem test_usca : (match exec (.usca true 130) (atM (seqAt 0 [] none) []) with
    | .next t => ((t.mx 0).mseq.map (fun m => (m.modeA, m.scaleA, m.pos))) | _ => none) = some (true, 130, 1) := by decide

/-! Local memories. -/

/-- Core 0 with the address a in x8 and one uncorrectable scratchpad unit at byte 64. -/
def addrX (a : V512) : State :=
  { on { core0 with seq := { seq0 with queues := qof .x 8 [a] :: seq0.queues } } with bad := [localBase 0 0 + 64] }
def clX : FmtCL := { cl with xa := 8 }
theorem test_meets_LocalLoads :
    (∃ t, Ready (at_ .ca) 0 [.x 8 false] (addrX 4088) [4088] t ∧ clEA clX [4088] + 8 ≤ 4096 ∧ clEA clX [4088] % 8 = 0 ∧
      (addrX 4088).badUnder (localBase 0 0 + 4088) 8 = false) ∧
    (∃ t, Ready (at_ .ca) 0 [.x 8 false] (addrX 4089) [4089] t ∧ 4096 < clEA clX [4089] + 8) ∧
    (∃ t, Ready (at_ .ca) 0 [.x 8 false] (addrX 1) [1] t ∧ clEA clX [1] + 8 ≤ 4096 ∧ clEA clX [1] % 8 ≠ 0) ∧
    (∃ t, Ready (at_ .ca) 0 [.x 8 false] (addrX 64) [64] t ∧ (addrX 64).badUnder (localBase 0 0 + 64) 8 = true) ∧
    (spaceOf (.core 0) 0).2.1 = 4096 :=
  ⟨⟨_, ⟨by decide, by decide, rfl⟩, by decide, by decide, by decide⟩, ⟨_, ⟨by decide, by decide, rfl⟩, by decide⟩,
    ⟨_, ⟨by decide, by decide, rfl⟩, by decide, by decide⟩, ⟨_, ⟨by decide, by decide, rfl⟩, by decide⟩, by decide⟩
theorem test_meets_LocalStores : ∃ t, Ready (at_ .ca) 0 ([.x 8 false] ++ [.x 0 false]) (addrX 4088) ([4088] ++ [7]) t ∧
    [(4088 : V512)].length = 1 := ⟨_, ⟨by decide, by decide, rfl⟩, rfl⟩
/-- A load from CMEM under a row that the unit has formed and not written, and one beside it. -/
def laterS (det : Bool) (a : V512) : State :=
  on { core0 with detMode := det, mx := { Matrix.empty with writes := [⟨12, 0, [some 7, some 8]⟩] }, seq := { seq0 with queues := qof .x 8 [a] :: seq0.queues } }
theorem test_meets_LocalLoads_later : ∀ det ∈ [true, false], ∃ t id u, Ready (at_ .ca) 0 [.x 8 false] (laterS det 0) [0] t ∧
    (laterS det 0).memOk ∧ reserve t (laterS det 0).cur.agent ((laterS det 0).xq (laterS det 0).cur.agent 2) ((laterS det 0).at + (spaceOf (.core 0) 3).2.2) = some (id, u) ∧
    laterRows 0 ((laterS det 0).core 0) = [((spaceOf (.core 0) 3).1, toBytes 7 4), ((spaceOf (.core 0) 3).1 + 4, toBytes 8 4)] := by
  intro det h
  rcases List.mem_cons.mp h with rfl | h
  · exact ⟨_, _, _, ⟨by decide, by decide, rfl⟩, by decide, rfl, by decide⟩
  · obtain rfl := List.mem_singleton.mp h
    exact ⟨_, _, _, ⟨by decide, by decide, rfl⟩, by decide, rfl, by decide⟩
theorem test_meets_LocalLoads_beside : ∀ w ∈ laterRows 0 ((laterS false 8).core 0), (spaceOf (.core 0) 3).1 + 8 + 8 ≤ w.1 ∨
    w.1 + w.2.length ≤ (spaceOf (.core 0) 3).1 + 8 := by decide
/-- A byte of a store that covers its uncorrectable unit, and one of a store that covers a part of it. -/
theorem test_meets_PerformedStores : (addrX 0).memOk ∧
    (∀ u ∈ (addrX 0).bad, u ≤ (localBase 0 0 + 64) + 7 → localBase 0 0 + 64 + 7 < u + unitSize u →
      localBase 0 0 + 64 ≤ u ∧ u + unitSize u ≤ localBase 0 0 + 64 + 8) ∧
    (∃ u ∈ (addrX 0).bad, u ≤ (localBase 0 0 + 68) + 3 ∧ localBase 0 0 + 68 + 3 < u + unitSize u ∧
      ¬ (localBase 0 0 + 64 + 4 ≤ u ∧ u + unitSize u ≤ localBase 0 0 + 68 + 4)) := by
  refine ⟨by decide, by decide, ⟨localBase 0 0 + 64, by decide, by decide, by decide, by decide⟩⟩
/-- Core 0 with a spill space of 64 bytes of scratchpad: offset in x8, n forwarding entries, a snapshot or none. -/
def spillS (a : V512) (n : Nat) (snap : Bool) : State :=
  on { core0 with seq := { seq0 with queues := qof .x 8 [a] :: seq0.queues }, spillSize := 64, spillBase := 0
                  fwd := List.replicate n { off := 0, bytes := List.replicate 8 5, due := none, acc := none }
                  snap := if snap then some (takeSnap 0 core0) else none }
theorem test_meets_Spill :
    (∃ t, Ready (at_ .ca) 0 ([.x 8 false] ++ [.x 0 false]) (spillS 56 15 false) ([56] ++ [7]) t ∧ (56 : Nat) % 8 = 0 ∧
      ((spillS 56 15 false).core 0).fwd.length < 16 ∧ spillPart 64 56 8 = some 0) ∧
    (∃ t, Ready (at_ .ca) 0 ([.x 8 false] ++ [.x 0 false]) (spillS 4160 0 false) ([4160] ++ [7]) t) ∧
    (spillPart 64 4088 8 = some 0 ∧ spillPart 64 4096 8 = some 1 ∧ spillPart 64 4160 8 = some 2 ∧ spillPart 64 (4160 + 2 ^ 24) 8 = none) ∧
    16 ≤ ((spillS 56 16 false).core 0).fwd.length ∧ ((spillS 0 0 true).core 0).snap.isSome ∧ ((spillS 0 0 false).core 0).stq.length < 64 ∧
    (spillPart 64 1 8).isSome ∧ (1 : Nat) % 8 ≠ 0 :=
  ⟨⟨_, ⟨by decide, by decide, rfl⟩, by decide, by decide, by decide⟩, ⟨_, ⟨by decide, by decide, rfl⟩⟩,
    by decide, by decide, by decide, by decide, by decide, by decide⟩
theorem test_meets_Fill : ∃ t id u, Ready (at_ .ca) 0 [.x 8 false] (spillS 0 1 false) [0] t ∧ spillPart 64 0 8 = some 0 ∧
    (spillS 0 1 false).bad = [] ∧ reserve t (.core 0) ⟨.x, 2⟩ ((spillS 0 1 false).at + 1) = some (id, u) ∧
    Covers { off := 0, bytes := List.replicate 8 5, due := none, acc := none } 0 :=
  ⟨_, _, _, ⟨by decide, by decide, rfl⟩, by decide, by decide, rfl, by decide⟩
/-- The first word of the overflow area. -/
theorem test_meets_Fill_overflow : ∃ t id u, Ready (at_ .ca) 0 [.x 8 false] (spillS 4160 1 false) [4160] t ∧
    spillPart ((spillS 4160 1 false).core 0).spillSize 4160 8 = some 2 ∧ 4160 % 8 = 0 ∧ ((spillS 4160 1 false).core 0).ldq.length < 64 ∧
    reserve t (.core 0) ⟨.x, 2⟩ ((spillS 4160 1 false).at + 256) = some (id, u) :=
  ⟨_, _, _, ⟨by decide, by decide, rfl⟩, by decide, by decide, by decide, rfl⟩

/-! Accesses through handles. -/

def handle0 : Handle := { valid := true, cause := 0, va := 2 ^ 20, pa := 2 ^ 20, large := false, read := true, write := true }
/-- Core 0 with handle 0, the offset a in x8, and queues of n accesses. -/
def acc0 : Access :=
  { id := 70, src := .core 0, slot := .ca, kind := .load, pa := 2 ^ 20, size := 8, data := 0, cmp := 0, land := .none, at_ := 0, ser := 0,
    release := false, acquire := false, scope := 0, path := 0, bound := 120, lat := 0, late := 130, stamp := 0, retry := false }
def handleS (h : Handle) (a : V512) (n : Nat) (snap : Bool) : State :=
  on { core0 with handles := [(0, h)], seq := { seq0 with queues := qof .x 8 [a] :: seq0.queues }, nextSer := 1
                  ldq := List.replicate n acc0, stq := List.replicate n { acc0 with kind := .store }
                  gated := List.replicate n { acc0 with kind := .store }, snap := if snap then some (takeSnap 0 core0) else none }
def chX : FmtCH := { ch with xo := 8, lat := 9 }
/-- The last aligned word of a small page, with room for one more access, and with none. -/
theorem test_meets_Loads :
    (∃ t id u, Ready (at_ .ca) 0 (chIdx chX) (handleS handle0 65528 63 false) [65528] t ∧ OnCore (handleS handle0 65528 63 false) 0 0 handle0 ∧
      HandleAllows handle0 (chEA chX [65528]) 8 true false ∧ ((handleS handle0 65528 63 false).core 0).ldq.length < 64 ∧
      reserve t (.core 0) ⟨.x, 2⟩ ((handleS handle0 65528 63 false).at + latFor (handleS handle0 65528 63 false) 0 (2 ^ 20 + 65528) 9) = some (id, u)) ∧
    (∃ t id u, Ready (at_ .ca) 0 (chIdx chX) (handleS handle0 65528 64 false) [65528] t ∧ 64 ≤ ((handleS handle0 65528 64 false).core 0).ldq.length ∧
      reserve t (.core 0) ⟨.x, 2⟩ ((handleS handle0 65528 64 false).at + latFor (handleS handle0 65528 64 false) 0 (2 ^ 20 + 65528) 9) = some (id, u)) :=
  ⟨⟨_, _, _, ⟨by decide, by decide, rfl⟩, by decide, by decide, by decide, rfl⟩, ⟨_, _, _, ⟨by decide, by decide, rfl⟩, by decide, rfl⟩⟩
theorem test_meets_Stores :
    (∃ t, Ready (at_ .ca) 0 (chIdx chX ++ [.x 0 false]) (handleS handle0 65528 63 false) ([65528] ++ [7]) t ∧
      HandleAllows handle0 (chEA chX [65528]) 8 false true) ∧
    (let k := (handleS handle0 0 63 false).core 0
     k.snap = none ∧ k.stq.length < 64 ∧ ∀ y ∈ k.stq, y.ser ≠ 2 * k.nextSer) ∧
    64 ≤ ((handleS handle0 0 64 false).core 0).stq.length ∧
    (let k := (handleS handle0 0 63 true).core 0
     k.snap.isSome ∧ (handleS handle0 0 63 true).cur.fin = false ∧ k.gated.length < 64 ∧ ∀ y ∈ k.gated, y.ser ≠ 2 * k.nextSer) ∧
    64 ≤ ((handleS handle0 0 64 true).core 0).gated.length :=
  ⟨⟨_, ⟨by decide, by decide, rfl⟩, by decide⟩, by decide, by decide, by decide, by decide⟩
/-- The handles and offsets of each clause: a handle that is not valid; host memory, for the forms that may not reach it; an offset
past the page's last word, and one before the page; a misaligned one; a page that may not be read, or not written. -/
def faultRows : List (Handle × V512) :=
  [(Handle.none, 0), ({ handle0 with pa := 12 * 2 ^ 48 }, 0), (handle0, 65536), (handle0, -8), (handle0, 4),
   ({ handle0 with read := false, write := false }, 8)]
theorem test_meets_HandleFaults : ∀ x ∈ faultRows, let s := handleS x.1 x.2 0 false
    OnCore s 0 0 x.1 ∧ s.Alone ∧ slotTrue (at_ .ca) 0 s = true := by decide
/-- The sources of a load, a store, an atomic with a result, a WAITV and an ASWAPV at those offsets. -/
theorem test_meets_HandleFaults_reads : ∀ x ∈ faultRows, let s := handleS x.1 x.2 0 false
    (∃ t, ReadsTo (at_ .ca) (chIdx chX) s [x.2] t) ∧ (∃ t, ReadsTo (at_ .ca) (chIdx chX ++ [.x 0 false]) s [x.2, 7] t) ∧
    (∃ t, ReadsTo (at_ .ca) [.x 8 false, .x 1 false, .x 2 false] s [x.2, 5, 5] t) ∧ (∃ t, ReadsTo (at_ .ca) [.x 8 false, .x 1 false] s [x.2, 5] t) ∧
    (∃ t, ReadsTo (at_ .ca) (chIdx { chX with sz := 7 } ++ [.v ⟨2, false, 7⟩]) s [x.2, 1] t) := by
  intro x h
  simp only [faultRows, List.mem_cons, List.not_mem_nil, or_false] at h
  rcases h with rfl | rfl | rfl | rfl | rfl | rfl <;> exact ⟨⟨_, rfl⟩, ⟨_, rfl⟩, ⟨_, rfl⟩, ⟨_, rfl⟩, ⟨_, rfl⟩⟩
theorem test_meets_HandleFaults_clauses :
    Handle.none.valid = false ∧ paClass ({ handle0 with pa := 12 * 2 ^ 48 } : Handle).pa = 12 ∧ paClass handle0.pa ≠ 12 ∧
    ¬ (0 ≤ chEA chX [65536] ∧ chEA chX [65536] + 8 ≤ 65536) ∧ ¬ (0 ≤ chEA chX [-8]) ∧
    (0 ≤ chEA chX [4] ∧ chEA chX [4] + 8 ≤ 65536 ∧ chEA chX [4] % 8 ≠ 0) ∧ chEA chX [8] % 8 = 0 := by decide
theorem test_meets_RegisterLoads : ∃ t, Ready (at_ .ca) 0 (chIdx chX) (handleS handle0 65472 63 false) [65472] t ∧
    HandleAllows handle0 (chEA chX [65472]) 8 true false ∧ HandleAllows handle0 (chEA { chX with sz := 7 } [65472]) 64 true false :=
  ⟨_, ⟨by decide, by decide, rfl⟩, by decide, by decide⟩
/-- An atomic with a result, one without, one that is gated, and one on a page of host memory. -/
theorem test_meets_Atomics :
    (∃ t id u, Ready (at_ .ca) 0 [.x 8 false, .x 1 false, .x 2 false] (handleS handle0 0 63 false) [0, 5, 5] t ∧
      HandleAllows handle0 0 8 true true ∧ paClass handle0.pa ≠ 12 ∧
      reserve t (.core 0) ⟨.x, 9⟩ ((handleS handle0 0 63 false).at + latFor (handleS handle0 0 63 false) 0 (2 ^ 20) 9) = some (id, u)) ∧
    (∃ t, Ready (at_ .ca) 0 [.x 8 false, .x 1 false] (handleS handle0 0 63 true) [0, 5] t) ∧
    (let h := { handle0 with pa := 12 * 2 ^ 48 }
     ∃ t, Ready (at_ .ca) 0 [.x 8 false, .x 1 false] (handleS h 0 0 false) [0, 5] t ∧ OnCore (handleS h 0 0 false) 0 0 h ∧ h.valid = true ∧ paClass h.pa = 12) :=
  ⟨⟨_, _, _, ⟨by decide, by decide, rfl⟩, by decide, by decide, rfl⟩, ⟨_, by decide, by decide, rfl⟩,
    ⟨_, ⟨by decide, by decide, rfl⟩, by decide, by decide, by decide⟩⟩
theorem test_meets_Aswapv : ∃ t id u, Ready (at_ .ca) 0 (chIdx { chX with sz := 7 } ++ [.v ⟨2, false, 7⟩]) (handleS handle0 65472 63 false) ([65472] ++ [1]) t ∧
    HandleAllows handle0 (chEA { chX with sz := 7 } [65472]) 64 true true ∧
    reserve t (.core 0) ⟨.v, 2⟩ ((handleS handle0 65472 63 false).at + latFor (handleS handle0 65472 63 false) 0 (2 ^ 20 + 65472) 9) = some (id, u) :=
  ⟨_, _, _, ⟨by decide, by decide, rfl⟩, by decide, rfl⟩
theorem test_meets_Ordering : (handleS handle0 0 63 false).Alone ∧ slotTrue (at_ .ca) 0 (handleS handle0 0 63 false) = true ∧
    (∃ t, ReadsTo (at_ .ca) [.x 8 false, .x 1 false] (handleS handle0 0 63 false) [0, 5] t) ∧ HandleAllows handle0 0 8 true false :=
  ⟨by decide, by decide, ⟨_, rfl⟩, by decide⟩
/-- R219: an LDA of scope reach acquires; R380: a store after a mark is gated. -/
theorem test_st_gated : (match exec (.st (at_ .ca) { ch with xo := 8 }) (handleS handle0 8 0 true) with
    | .next t => ((t.core 0).gated.map (fun x => (x.pa, x.size)), (t.core 0).stq.length) | _ => ([], 9)) = ([(2 ^ 20 + 8, 8)], 0) := by decide

/-! Homes and replies. -/

/-- Dome 0 formatted, with memory bytes, poisoned blocks, w watches, and the request x. -/
def homeS (m : Memory) (po : List Nat) (w : Nat) (x : Access) : State :=
  { State.reset with mem := m, poison := po, reqs := [x], now := 1
                     domes := [(0, { Dome.fresh with formatted := true, poolFree := 9, watches := List.replicate w ⟨acc0⟩ })] }
/-- A request that arrived in cycle 0. -/
def reqA : Access := { acc0 with came := some 0 }
def loadA : Access := { reqA with pa := 2 ^ 20 + 248 }
def storeA : Access := { loadA with kind := .store, data := 0x0807060504030201 }
/-- A request on its way: alone, and behind another of its source over its bytes; in a deterministic group before its stamp. -/
def sentA : Access := { acc0 with came := none, stamp := 99 }
def detS : State :=
  { homeS [] [] 0 sentA with
    cores := [(0, { core0 with launch := some 1, detMode := true })], launches := [(1, { launch0 with detMode := true, replicas := [homeNo (2 ^ 20)] })] }
theorem test_meets_Arrivals :
    (let s := homeS [] [] 0 sentA
     s.reqs.find? (fun y => y.id == 70) = some sentA ∧ sentA.came = none ∧ stampGroup s sentA = none ∧ mayArrive s sentA = true) ∧
    mayArrive { homeS [] [] 0 sentA with reqs := [{ sentA with id := 69 }, sentA] } sentA = false ∧
    (let y := { sentA with id := 69 }
     let s := { homeS [] [] 0 sentA with reqs := [y, sentA] }
     s.reqs = [] ++ y :: [sentA] ∧ (∀ z ∈ [] ++ [y], z.id ≠ 70) ∧ y.src = sentA.src ∧ y.came = none ∧ y.pa < sentA.pa + sentA.size) ∧
    (∃ n v, stampGroup detS sentA = some (n, v) ∧ v < sentA.stamp) :=
  ⟨by decide, by decide, by decide, 1, 10, by decide, by decide⟩
theorem test_meets_Homes :
    (Served (homeS [] [] 0 loadA) 70 loadA ∧ DomeAnswers (homeS [] [] 0 loadA) loadA.pa 8 ∧ loadA.kind = .load) ∧
    (Served (homeS [] [] 0 storeA) 70 storeA ∧ DomeAnswers (homeS [] [] 0 storeA) storeA.pa 8 ∧ storeA.kind = .store ∧
      (homeS [] [] 0 storeA).poisoned (storeA.pa / 256 * 256) = false ∧ (homeS [] [] 0 storeA).memOk ∧
      moreUnits (homeS [] [] 0 storeA) storeA.pa ((homeS [] [] 0 storeA).mem.write storeA.pa (toBytes storeA.data.toNat 8)) ≤ 9) ∧
    (homeS [] [2 ^ 20] 0 storeA).poisoned (storeA.pa / 256 * 256) = true := by decide
/-- A CLM, host memory, and a peer whose link is up. -/
def otherS (x : Access) : State :=
  { homeS [] [] 0 x with fw := { Firmware.fresh with liveCore := [(0, BitVec.allOnes 64)], ports := [(3, .peer)], portUp := [(3, true)] } }
theorem test_meets_OtherHomes : ∀ pa ∈ [8 * 2 ^ 48, 12 * 2 ^ 48, 14 * 2 ^ 48 + 3 * 2 ^ 44], ∀ k ∈ [AccKind.load, .store],
    let x := { reqA with pa := pa, kind := k }
    Served (otherS x) 70 x ∧ paClass x.pa ≠ 0 ∧ homeKnown (otherS x) x.pa x.size = true ∧ (otherS x).bad = [] ∧ (otherS x).memOk := by decide
/-- A WAITV of a doubleword equal to 0: its condition holds on zero memory, not on memory that holds 1. -/
def waitA : Access := { reqA with kind := .waitv 0 true }
theorem test_meets_HomeWatches :
    (Served (homeS [] [] 0 waitA) 70 waitA ∧ DomeAnswers (homeS [] [] 0 waitA) waitA.pa 8 ∧
      condMet 0 64 ((homeS [] [] 0 waitA).mem.num waitA.pa 8) (waitA.data.toNat % 2 ^ 64) = true) ∧
    (Served (homeS [(2 ^ 20, 1)] [] 1023 waitA) 70 waitA ∧ DomeAnswers (homeS [(2 ^ 20, 1)] [] 1023 waitA) waitA.pa 8 ∧
      condMet 0 64 ((homeS [(2 ^ 20, 1)] [] 1023 waitA).mem.num waitA.pa 8) (waitA.data.toNat % 2 ^ 64) = false ∧
      ((homeS [(2 ^ 20, 1)] [] 1023 waitA).dome 0).watches.length < 1024) ∧
    1024 ≤ ((homeS [(2 ^ 20, 1)] [] 1024 waitA).dome 0).watches.length := by decide
/-- AADD of 1, an ACAS that does not match, an exchange of 64 bytes. -/
def addA : Access := { reqA with kind := .atomic 0x18 true, data := 1 }
def casA : Access := { reqA with kind := .atomic 0x21 true, data := 1, cmp := 5 }
def swapA : Access := { reqA with kind := .swapv, size := 64, data := 1 }
theorem test_meets_HomeAtomics :
    (Served (homeS [] [] 0 addA) 70 addA ∧ DomeAnswers (homeS [] [] 0 addA) addA.pa 8 ∧
      moreUnits (homeS [] [] 0 addA) addA.pa ((homeS [] [] 0 addA).mem.write addA.pa (toBytes 1 8)) ≤ 9) ∧
    (Served (homeS [] [] 0 casA) 70 casA ∧ DomeAnswers (homeS [] [] 0 casA) casA.pa 8 ∧
      (if (homeS [] [] 0 casA).mem.num casA.pa 8 = casA.cmp.toNat % 2 ^ 64 then some 1 else none) = none) ∧
    (Served (homeS [] [] 0 swapA) 70 swapA ∧ DomeAnswers (homeS [] [] 0 swapA) swapA.pa 64 ∧
      moreUnits (homeS [] [] 0 swapA) swapA.pa ((homeS [] [] 0 swapA).mem.write swapA.pa (toBytes 1 64)) ≤ 9) := by decide
/-- R226, R227: AADD answers the old word and adds. -/
theorem test_aadd : (match exec (.homeAtomic 70) (homeS [(2 ^ 20, 255)] [] 0 addA) with
    | .next t => (t.mem, t.reps.map (·.data)) | _ => ([], [])) = ([(2 ^ 20 + 1, 1)], [255]) := by decide
/-- A load and a store that nothing holds back, a reply for entry 0 of x5, a WAITV to be sent again. -/
theorem test_meets_SendAndLand :
    (let s := handleS handle0 0 1 false
     (s.core 0).ldq = acc0 :: [] ∧ sendable s (.core 0) false acc0 = true ∧ (s.core 0).stq = { acc0 with kind := .store } :: [] ∧
       sendable s (.core 0) true { acc0 with kind := .store } = true) ∧
    (let y : Reply := { acc := { acc0 with land := .entry ⟨.x, 5⟩ 0 3 }, data := 9, poison := false, abandoned := false, retry := false, resumeAt := 0 }
     let s := { s0 with reps := [y] }
     s.reps.find? (fun r => r.acc.id == 70) = some y ∧ y.acc.src = .core 0 ∧ y.acc.land = .entry ⟨.x, 5⟩ 0 3 ∧ y.abandoned = false) ∧
    (let y : Reply := { acc := { acc0 with land := .fill ⟨.x, 5⟩ 0 3 [(0, 9)] }, data := 9, poison := false, abandoned := false, retry := false, resumeAt := 0 }
     let s := { s0 with reps := [y] }
     s.reps.find? (fun r => r.acc.id == 70) = some y ∧ y.acc.land = .fill ⟨.x, 5⟩ 0 3 [(0, 9)] ∧ y.acc.size = bytesOf 3 ∧ Wait.uiret ∉ (s.core 0).waits) ∧
    (∀ po ∈ [true, false], ∀ l ∈ [Landing.stream 31 4, .desc 15 4],
      let y : Reply := { acc := { acc0 with land := l }, data := 9, poison := po, abandoned := false, retry := false, resumeAt := 0 }
      let s := { s0 with reps := [y] }
      s.reps.find? (fun r => r.acc.id == 70) = some y ∧ y.acc.src = .core 0 ∧ y.abandoned = false ∧ Wait.uiret ∉ (s.core 0).waits) ∧
    (let x := { waitA with retry := true, late := 10 }
     let s := on { core0 with waits := [.waitv x] }
     (s.core 0).mode = .run ∧ (s.core 0).waits = [.waitv x] ∧ x.retry = true ∧ x.late ≤ s.vccOf 0) := by decide

/-- The last shadow entry of a handler whose UIRET waits. -/
theorem test_meets_LateUiret : let y : Reply := { acc := { acc0 with land := .entry ⟨.sh, 56⟩ 0 3 }, data := 9, poison := false, abandoned := false, retry := false, resumeAt := 0 }
    let s := { on { core0 with waits := [.uiret], uistat := 16, seq := { seq0 with queues := [(⟨.sh, 56⟩, [⟨0, 10, none, none⟩])] } } with reps := [y] }
    s.reps.find? (fun r => r.acc.id == 70) = some y ∧ (s.core 0).mode = .run ∧ (s.core 0).waits = [.uiret] ∧ (s.core 0).savedWaits = [] ∧
      (s.core 0).finWait = false ∧ ∀ v po, shadowLanded ((landEntry s (.core 0) ⟨.sh, 56⟩ 0 v po).core 0) = true :=
  ⟨by decide, by decide, by decide, by decide, by decide, fun _ _ => rfl⟩

/-! Copy engines. -/

/-- A copy record (R237) at AMEM byte 0: one element of 8 bytes from AMEM byte 4096 to byte 8192. -/
def recBytes : List Byte :=
  toBytes (1 + 1 * 8 + 1 * 64 + 3 * 512) 4 ++ toBytes 4096 4 ++ toBytes 8192 4 ++ toBytes 0 4 ++ toBytes 1 4
def copyS (q : List (QName × List Entry)) (e : CopyEngine) : State :=
  { on { core0 with seq := { seq0 with queues := q ++ seq0.queues }, eng0 := e } with
    mem := Memory.write [] (localBase 0 1) recBytes }
def run0 (r : CopyRec) : CopyRun :=
  { tag := 0, slot := .ca, recs := [r], pages := [], acq := false, rel := false, scope := 0, ser := 0, sum := false, value := 0, deadline := 10,
    issued := 0, started := false, ridx := 0, done := 0, bytes := 0, status := 0, finished := false, recalled := false, since := 0 }
def rec0 : CopyRec :=
  { skind := 1, dkind := 1, dims := 1, e := 3, chk := false, sbase := 4096, dbase := 8192, ext := [1, 0, 0, 0, 0, 0], sstr := [0, 0, 0, 0, 0, 0],
    dstr := [0, 0, 0, 0, 0, 0], expect := 0, spa := localBase 0 1, dpa := localBase 0 1 }
def eng (r : CopyRun) (log : List (BitVec 16 × W64)) : CopyEngine := { CopyEngine.empty with queue := [r], nextSeq := 1, issuedAny := true, log := log }
def ceX : FmtCE := { ce with xr := 8, xs := 9, xt := 10 }
def copyQ (a b : V512) (n : Nat) : State :=
  copyS [qof .x 8 [a], qof .x 9 [b]] { CopyEngine.empty with queue := List.replicate n (run0 rec0) }
theorem test_meets_Cpy : ∃ t recs id u, ReadsTo (at_ .ca) [.x 8 false] (copyQ 0 1 15) [0] t ∧ RecordsAt (copyQ 0 1 15) 0 0 1 false .ca ceX recs ∧
    ((copyQ 0 1 15).eng 0 0).queue.length < 16 ∧ reserve t (.core 0) ⟨.x, 10⟩ ((copyQ 0 1 15).at + 1) = some (id, u) :=
  ⟨_, _, _, _, rfl, ⟨by decide, by decide, by decide, rfl⟩, by decide, rfl⟩
theorem test_meets_CpyTwoSources : ∃ t id u, ReadsTo (at_ .ca) [.x 8 false, .x 9 false] (copyQ 0 1 15) [0, 1] t ∧
    reserve t (.core 0) ⟨.x, 10⟩ ((copyQ 0 1 15).at + 1) = some (id, u) ∧ (∃ recs, RecordsAt (copyQ 0 1 15) 0 0 1 true .ca ceX recs) ∧
    1 ≤ (1 : V512).toNat % 2 ^ 64 ∧ (1 : V512).toNat % 2 ^ 64 ≤ 32 ∧ (∃ recs, RecordsAt (copyQ 0 1 15) 0 0 1 false .ca ceX recs) :=
  ⟨_, _, _, rfl, rfl, ⟨_, by decide, by decide, by decide, rfl⟩, by decide, by decide, ⟨_, by decide, by decide, by decide, rfl⟩⟩
/-- CPY2 of 8 bytes of AMEM; records past AMEM's end and off 64 bytes; counts of 0 and of 33. -/
theorem test_meets_CpyFaults :
    (∃ r, cpy2Rec ((4096 + 8192 * 2 ^ 32 : V512).setWidth 64) ((8 + 1 * 2 ^ 24 + 1 * 2 ^ 27 + 3 * 2 ^ 30 : V512).setWidth 64) = some r ∧
      recFault .ca 0 core0 0 0 r = none) ∧
    (∃ t, ReadsTo (at_ .ca) [.x 8 false] (copyQ 524224 0 0) [524224] t ∧ 524288 < (524224 : V512).toNat % 2 ^ 64 + 128) ∧
    (∃ t, ReadsTo (at_ .ca) [.x 8 false] (copyQ 524160 0 0) [524160] t ∧ (524160 : V512).toNat % 2 ^ 64 + 128 ≤ 524288) ∧
    (∃ t, ReadsTo (at_ .ca) [.x 8 false] (copyQ 32 0 0) [32] t ∧ (32 : V512).toNat % 2 ^ 64 % 64 ≠ 0) ∧
    (∃ t, ReadsTo (at_ .ca) [.x 8 false, .x 9 false] (copyQ 0 0 0) [0, 0] t) ∧ (∃ t, ReadsTo (at_ .ca) [.x 8 false, .x 9 false] (copyQ 0 33 0) [0, 33] t) :=
  ⟨⟨_, rfl, by decide⟩, ⟨_, rfl, by decide⟩, ⟨_, rfl, by decide⟩, ⟨_, rfl, by decide⟩, ⟨_, rfl⟩, _, rfl⟩
/-- A tag reported with status 0 and with status 4, one that is queued, one that is not in force. -/
def tagS (a : V512) (st : W64) : State := copyS [qof .x 8 [a]] { eng { run0 rec0 with tag := 0 } [(1, st * 2 ^ 32)] with nextSeq := 2 }
theorem test_meets_CopyTags :
    (∃ t, Ready (at_ .ca) 0 [.x 8 false] (tagS 1 0) [1] t ∧ tagLook ((tagS 1 0).core 0) ((1 : V512).setWidth 64) = .word 0) ∧
    (∃ t, Ready (at_ .ca) 0 [.x 8 false] (tagS 1 4) [1] t ∧ tagLook ((tagS 1 4).core 0) ((1 : V512).setWidth 64) = .word (4 * 2 ^ 32) ∧
      ((4 * 2 ^ 32 : W64).toNat / 2 ^ 32 % 8 = 4)) ∧
    (∃ t r id u, Ready (at_ .ca) 0 [.x 8 false] (tagS 0 0) [0] t ∧ tagLook ((tagS 0 0).core 0) ((0 : V512).setWidth 64) = .queued r ∧
      reserve t (.core 0) ⟨.x, 10⟩ (2 ^ 64) = some (id, u)) ∧
    (∃ t, Ready (at_ .ca) 0 [.x 8 false] (tagS 2 0) [2] t ∧ tagLook ((tagS 2 0).core 0) ((2 : V512).setWidth 64) = .illegal) :=
  ⟨⟨_, ⟨by decide, by decide, rfl⟩, rfl⟩, ⟨_, ⟨by decide, by decide, rfl⟩, rfl, by decide⟩, ⟨_, _, _, _, ⟨by decide, by decide, rfl⟩, rfl, rfl⟩,
    _, ⟨by decide, by decide, rfl⟩, rfl⟩
theorem test_meets_CopyEngines :
    (let s := copyS [] (eng (run0 rec0) [])
     (s.eng 0 0).queue = run0 rec0 :: [] ∧ (run0 rec0).started = false ∧ enginesRun (s.core 0) = true ∧ engineStill s 0 0 = false ∧ (run0 rec0).recalled = false) ∧
    (let r := { run0 rec0 with started := true }
     let s := copyS [] (eng r [])
     (s.eng 0 0).queue = r :: [] ∧ (s.eng 0 0).left = [] ∧ r.finished = false ∧ enginesRun (s.core 0) = true ∧ engineStill s 0 0 = false ∧
       r.recalled = false ∧ r.acq = false ∧ r.recs[r.ridx]? = some rec0 ∧ recCount rec0 ≠ 0 ∧ s.bad = [] ∧ s.memOk ∧
       (s.core 0).injCtl.getLsbD 0 = false ∧ keptUnits s 0 0 = [] ∧
       r.done + (chunkAddrs rec0 r.done).length = recCount rec0 ∧ chunkTime s 0 r 8 = false ∧
       chunkTime { s with now := 1 } 0 r 8 = true) ∧
    (let r := { run0 rec0 with started := true, finished := true }
     let s := copyS [] (eng r [])
     let w := { s.core 0 with waits := [.cwait r.tag ⟨.x, 8⟩ none ⟨.x, 5⟩ 0 0 .ca] }
     (s.eng 0 0).queue = r :: [] ∧ r.finished = true ∧ ((s.core 0).detMode = true → r.deadline ≤ s.vccOf 0) ∧ (s.core 0).mode = .run ∧
       (∀ x ∈ (s.core 0).waits, cwaitOf r.tag x = false) ∧ w.mode = .run ∧
       w.waits = [.cwait r.tag ⟨.x, 8⟩ none ⟨.x, 5⟩ 0 0 .ca] ∧ r.status ≤ 1 ∧ w.finWait = false) := by decide
/-- The hypotheses on a chunk that a record moves. -/
abbrev chunkMeets (s : State) (r : CopyRun) (rec : CopyRec) : Prop :=
  (s.eng 0 0).queue = r :: [] ∧ (s.eng 0 0).left = [] ∧ r.started = true ∧ r.finished = false ∧ enginesRun (s.core 0) = true ∧
    engineStill s 0 0 = false ∧ r.recalled = false ∧ r.acq = false ∧ r.recs[r.ridx]? = some rec ∧ rec.e ≤ 3 ∧ s.bad = [] ∧ s.memOk
abbrev placesMeet (s : State) (r : CopyRun) (rec : CopyRec) : Prop :=
  keptUnits s 0 0 = [] ∧ chunkAddrs rec r.done ≠ [] ∧
    (∀ x ∈ chunkAddrs rec r.done, x.2 % 2 ^ rec.e = 0 ∧ Reached s 0 0 (2 ^ rec.e) x.1 ∧ Reached s 0 0 (2 ^ rec.e) x.2) ∧
    Apart (chunkAddrs rec r.done) (2 ^ rec.e) ∧
    ∀ x ∈ chunkAddrs rec r.done, x.2 < 2 ^ 60 → paClass x.2 = 0 → 3 * (chunkAddrs rec r.done).length ≤ (s.dome (domeOf x.2)).poolFree
/-- A chunk within AMEM, and one of a CPYSUM from dome memory to dome memory. -/
def farRec : CopyRec := { rec0 with skind := 7, dkind := 7, sbase := 0, dbase := 0, spa := 2 ^ 20, dpa := 2 ^ 20 + 4096 }
def farRun (rel sum : Bool) : CopyRun := { run0 farRec with started := true, rel := rel, sum := sum }
def farS (r : CopyRun) : State := { copyS [] (eng r []) with now := 1, domes := [(0, { Dome.fresh with formatted := true, poolFree := 9 })] }
def nearRun : CopyRun := { run0 rec0 with started := true }
theorem test_meets_Chunks : chunkMeets { copyS [] (eng nearRun []) with now := 1 } nearRun rec0 ∧ ∀ rel ∈ [true, false], ∀ sum ∈ [true, false],
    chunkMeets (farS (farRun rel sum)) (farRun rel sum) farRec := by decide +kernel
theorem test_meets_ChunkPlaces_local : placesMeet { copyS [] (eng nearRun []) with now := 1 } nearRun rec0 := by
  refine ⟨by decide +kernel, by decide +kernel, by decide +kernel, by decide +kernel, by decide +kernel⟩
theorem test_meets_ChunkPlaces (rel sum : Bool) : placesMeet (farS (farRun rel sum)) (farRun rel sum) farRec ∧
    chunkTime (farS (farRun rel sum)) 0 (farRun rel sum) 8 = true := by
  cases rel <;> cases sum <;>
    exact ⟨⟨by decide +kernel, by decide +kernel, by decide +kernel, by decide +kernel, by decide +kernel⟩, by decide +kernel⟩
/-- The injector of a chunk's bit 8 * 3 + 5. -/
theorem test_meets_Injects : let r := farRun true true
    Injects ((farS r).setCore 0 { (farS r).core 0 with injCtl := BitVec.ofNat 64 (1 + 29 * 4) }) 0 0 r 8 3 5 := by decide
/-- A write that has left an engine. -/
theorem test_meets_Left : let o : CopyOut := { tag := 0, slot := .ca, deadline := 10, group := [(2 ^ 20 + 4096, toBytes 5 8)] }
    let s := (farS (farRun false false)).setCore 0 { core0 with eng0 := { CopyEngine.empty with left := [o] } }
    (s.eng 0 0).queue = [] ∧ (s.eng 0 0).left = o :: [] ∧ paClass (2 ^ 20 + 4096) = 0 ∧ Reached s 0 0 8 (2 ^ 20 + 4096) ∧ s.memOk ∧
      ovfNeed (sectorsOf (blockWords (s.mem.write (2 ^ 20 + 4096) (toBytes 5 8)) (2 ^ 20 + 4096))) -
        ((s.dome 0).block (blockOf (2 ^ 20 + 4096))).ovf.length ≤ (s.dome 0).poolFree := by decide +kernel
/-- A record of one element more than a chunk of 16 KiB, from AMEM byte 0 to byte 65536. -/
def bigRec : CopyRec :=
  { rec0 with sbase := 0, dbase := 65536, ext := [2049, 0, 0, 0, 0, 0], sstr := [8, 0, 0, 0, 0, 0], dstr := [8, 0, 0, 0, 0, 0] }
theorem bigRec_chunk : chunkAddrs bigRec 0 =
    (List.range 2048).map (fun i => (localBase 0 1 + i % 2049 * 8, localBase 0 1 + 65536 + i % 2049 * 8)) := by
  unfold chunkAddrs
  rw [show min (chunkElems bigRec.e) (recCount bigRec - 0) = 2048 from rfl]
  apply List.map_congr_left
  intro i _
  have h : elemOff (bigRec.ext.take bigRec.dims) bigRec.sstr (0 + i) = ((i % 2049 : Nat) : Int) * 8 + 0 := by
    rw [Nat.zero_add]; rfl
  have g : elemOff (bigRec.ext.take bigRec.dims) bigRec.dstr (0 + i) = ((i % 2049 : Nat) : Int) * 8 + 0 := by
    rw [Nat.zero_add]; rfl
  rw [h, g]
  simp only [bigRec, rec0, Prod.mk.injEq]
  omega
theorem test_meets_CopyChunk_more : Apart (chunkAddrs bigRec 0) 8 ∧ 0 + (chunkAddrs bigRec 0).length < recCount bigRec := by
  rw [bigRec_chunk]
  refine ⟨⟨?_, ?_⟩, by simp; decide⟩
  · simp only [List.mem_map, List.mem_range]; rintro x ⟨i, hi, rfl⟩ y ⟨j, hj, rfl⟩; simp; omega
  · rw [List.pairwise_map]
    refine List.Pairwise.imp_of_mem ?_ List.pairwise_lt_range
    intro i j hi hj h
    simp only [List.mem_range] at hi hj
    simp; omega

/-! Translation. -/

/-- A page table that maps virtual page 0 to the page at 2^20 of dome 0, for reading and writing. -/
def ptes0 : List (Nat × W64) := [(0, 0x4001), (0x4000, 0x2001), (0x2000, 0x3001), (0x3000, 2 ^ 20 + 0xF)]
def dome0 : Dome := { Dome.fresh with formatted := true, poolFree := 9 }
def tlbE (large : Bool) : TlbEntry := { vpn := 0, large := large, pa := 2 ^ 20, read := true, write := true, pinned := false }
def xlatS (a : V512) (l : List TlbEntry) : State := on { core0 with tlb := l, seq := { seq0 with queues := qof .x 8 [a] :: seq0.queues } }
theorem test_meets_HandleForms :
    ((xlatS 0 []).Alone ∧ slotTrue (at_ .ca) 0 (xlatS 0 []) = true) ∧
    (∃ t, ReadsTo (at_ .ca) [.x 8 false] (xlatS (2 ^ 56) []) [2 ^ 56] t ∧ 2 ^ 56 ≤ (2 ^ 56 : V512).toNat % 2 ^ 64) ∧
    (∃ t, ReadsTo (at_ .ca) [.x 8 false] (xlatS 65535 [tlbE false]) [65535] t ∧
      tlbFind ((xlatS 65535 [tlbE false]).core 0).tlb 65535 = some (tlbE false)) ∧
    (∃ t, ReadsTo (at_ .ca) [.x 8 false] (xlatS 65535 [tlbE true]) [65535] t ∧
      tlbFind ((xlatS 65535 [tlbE true]).core 0).tlb 65535 = some (tlbE true) ∧ (tlbE true).large ≠ false) ∧
    (∃ t, ReadsTo (at_ .ca) [.x 8 false] (xlatS 65536 [tlbE false]) [65536] t ∧
      tlbFind ((xlatS 65536 [tlbE false]).core 0).tlb 65536 = none) :=
  ⟨by decide, ⟨_, rfl, by decide⟩, ⟨_, rfl, by decide⟩, ⟨_, rfl, by decide, by decide⟩, _, rfl, by decide⟩
/-- A fill of page 0 that began before cycle 10, in a cluster with the entries l, under a page table. -/
def fill0 : Fill := { id := 3, va := 0, large := false, start := 0, since := 0, reg := 0, pendId := 3 }
def fillS (l : List TlbEntry) (p : List (Nat × W64)) : State :=
  { on { core0 with fills := [fill0], seq := { seq0 with vcc := 12 } } with
    now := 12, clusters := [(0, { tlb := l, watches := [] })], ptes := p, domes := [(0, dome0)] }
theorem test_meets_Fills :
    ((fillS [] []).core 0).fills.find? (fun x => x.id == 3) = some fill0 ∧ fill0.since + 12 ≤ (fillS [] []).now ∧
    tlbFind ((fillS [tlbE false] []).cluster (0 / 8)).tlb fill0.va = some (tlbE false) ∧ fill0.id = 3 ∧
    (tlbFind ((fillS [] ptes0).cluster (0 / 8)).tlb fill0.va = none ∧
      (fillS [] ptes0).walk fill0.va = some { pa := 2 ^ 20, large := false, read := true, write := true, moving := false } ∧
      recallOver (fillS [] ptes0) (2 ^ 20) = false ∧ paClass (2 ^ 20) = 0 ∧ ((fillS [] ptes0).dome 0).leases.length < 32768) ∧
    (fillS [] []).walk fill0.va = none := by decide
theorem test_meets_Recalls :
    (let r : Recall := { page := 2 ^ 20, large := false, holders := [0] }
     let s := { fillS [tlbE false] [] with recalls := [r] }
     s.recalls.find? (fun x => x.page == 2 ^ 20) = some r ∧ r.holders.contains 0 = true) ∧
    (let r : Recall := { page := 2 ^ 20, large := false, holders := [] }
     let s := { fillS [] [] with recalls := [r] }
     s.recalls.find? (fun x => x.page == 2 ^ 20) = some r ∧ r.holders = [] ∧ topHolds s (2 ^ 20) r.large = false ∧
       (∀ x ∈ s.reqs, inPage (2 ^ 20) r.large x.pa = false) ∧ waitvOn s (2 ^ 20) r.large = false) := by decide
/-- A recall that waits: for a holder, for an access, and for a WAITV that waits at its home. -/
theorem test_meets_RecallWaits :
    (let s := { fillS [] [] with reqs := [acc0] }
     ∃ x ∈ s.reqs, inPage (2 ^ 20) false x.pa = true) ∧
    waitvOn { fillS [] [] with domes := [(0, { dome0 with watches := [⟨waitA⟩] })] } (2 ^ 20) false = true := by decide

/-! T-ops. -/

/-- A descriptor word (R254): rank 1, four unscaled signed 32-bit elements at va; and the descriptor it stands for. -/
def descW (va : V512) : V512 := va + 2 * 2 ^ 64 + 1 * 2 ^ 72 + 4 * 2 ^ 128
def descAt (va : Nat) : Desc :=
  { base := va, fmt := 2, rank := 1, scaled := false, ext := [4, 0, 0, 0], str := [1, 0, 0, 0], scales := 0, grammar := 0 }
def topsS (a : V512) (n : Nat) (po : Option Nat) : State :=
  on { core0 with descs := [(0, (descW a, po)), (1, (descW 256, none)), (2, (descW 512, none))], tops := List.replicate n 9, topNext := 1 }
theorem test_meets_TopForms :
    ((topsS 0 31 none).Alone ∧ slotTrue (at_ .mx) 0 (topsS 0 31 none) = true ∧ (topsS 0 31 none).cur.agent = .core 0) ∧
    DescsAre (topsS 0 31 none) 0 mt true (descAt 0) (descAt 256) (descAt 512) ∧
    topCheck 0x10 0 (some (descAt 0)) (some (descAt 256)) (some (descAt 512)) = none ∧ ((topsS 0 31 none).core 0).tops.length < 32 ∧
    32 ≤ ((topsS 0 32 none).core 0).tops.length ∧
    (DescsAre (topsS 2 0 none) 0 mt true (descAt 2) (descAt 256) (descAt 512) ∧
      topCheck 0x10 0 (some (descAt 2)) (some (descAt 256)) (some (descAt 512)) = some 0x0B) ∧
    (descReg ((topsS 0 0 (some 64)).core 0) mt.dd).2 = some 64 := by decide
theorem test_meets_TopForms_room : ∃ id u, reserve (topsS 0 31 none) (.core 0) ((topsS 0 31 none).xq (.core 0) 9) ((topsS 0 31 none).at + 1) = some (id, u) :=
  ⟨_, _, rfl⟩
/-- A descriptor word of a format, rank, extents, and a stride of its second dimension; a grammar's pointer in byte 56. -/
def formW (base fmt rank e0 e1 t1 g : Nat) : V512 :=
  BitVec.ofNat 512 (base + fmt * 2 ^ 64 + rank * 2 ^ 72 + e0 * 2 ^ 128 + e1 * 2 ^ 160 + t1 * 2 ^ 256 + g * 2 ^ 448)
def dOf (v : V512) : Desc := (descOf v).getD (descAt 0)
def formS (d a b : V512) : State :=
  { on { core0 with descs := [(0, (d, none)), (1, (a, none)), (2, (b, none))], tops := List.replicate 31 9 } with
    fw := { Firmware.fresh with ports := [(1, .switch 2 0)] } }
def int4 (base : Nat) : V512 := formW base 2 1 4 0 0 0
def flt4 (base : Nat) : V512 := formW base 10 1 4 0 0 0
/-- Each form with three descriptors that pass its checks. -/
def formRows : List (Nat × V512 × V512 × V512) :=
  [0x10, 0x11, 0x12, 0x13, 0x14, 0x17, 0x18, 0x1A].map (fun op => (op, int4 0, int4 256, int4 512)) ++
    [(0x15, formW 0 10 1 1 0 0 0, flt4 256, flt4 512), (0x16, formW 0 2 1 1 0 0 0, int4 256, int4 512), (0x19, flt4 0, flt4 256, flt4 512),
     (0x1B, formW 0 10 2 4 1 4 0, formW 0 13 2 4 4 4 1024, formW 512 10 2 4 1 4 0)]
theorem test_meets_PlacedForms : ∀ x ∈ formRows, let s := formS x.2.1 x.2.2.1 x.2.2.2
    let b := if twoSource x.1 then x.2.2.2 else x.2.2.1
    s.Alone ∧ slotTrue (at_ .mx) 0 s = true ∧ s.cur.agent = .core 0 ∧ (s.entries (.core 0) (s.xq (.core 0) mt.xt.toNat)).length < 4 ∧
    (s.core 0).tops.length < 32 ∧ DescsAre s 0 mt (twoSource x.1) (dOf x.2.1) (dOf x.2.2.1) (dOf b) ∧
    topCheck x.1 mt.aux (some (dOf x.2.1)) (some (dOf x.2.2.1)) (some (dOf b)) = none := by decide +kernel
/-- TALLRED, TGATHER and TBCAST on port 1. -/
theorem test_meets_PlacedCollectives : ∀ x ∈ [(0x20, int4 0), (0x21, formW 0 2 2 4 2 4 0), (0x22, int4 0)],
    let s := formS x.2 (int4 256) (int4 512)
    DescsAre s 0 { mt with aux := 4 } (twoSource x.1) (dOf x.2) (dOf (int4 256)) (dOf (int4 256)) ∧
    collectiveCheck s x.1 4 (some (dOf x.2)) (some (dOf (int4 256))) = none := by decide +kernel
/-- R257: a TADD is issued, its tag in its queue. -/
theorem test_tadd : (match exec (.tadd (at_ .mx) mt) (formS (int4 0) (int4 256) (int4 512)) with
    | .next t => (t.tops.map (fun x => x.2.op), (t.core 0).tops.length) | _ => ([], 0)) = ([0x10], 32) := by decide +kernel
/-- Port 1 holds a switch of two ranks; without one the collective is refused. -/
theorem test_meets_CollectiveForms : let s := { topsS 0 0 none with fw := { Firmware.fresh with ports := [(1, .switch 2 0)] } }
    DescsAre s 0 mt false (descAt 0) (descAt 256) (descAt 256) ∧ collectiveCheck s 0x22 4 (some (descAt 0)) (some (descAt 256)) = none ∧
    collectiveCheck (topsS 0 0 none) 0x22 4 (some (descAt 0)) (some (descAt 256)) = some 0x02 := by decide
def waitS (a : V512) (m : List (BitVec 16)) (r : List TopRep) : State :=
  on { core0 with topNext := 2 ^ 15, tops := m, reports := r, seq := { seq0 with queues := qof .x 8 [a] :: seq0.queues } }
def rep (st : Nat) : TopRep := { tag := 5, status := st, cause := 0x14, r0 := 1, r1 := 2, r2 := 3 }
/-- Tags out of range and too old; one in flight; one reported with status 0 and with status 1; one that has no report left. -/
theorem test_meets_TopWaits :
    (∃ t, Ready (at_ .mx) 0 [.x 8 false] (waitS 65536 [] []) [65536] t) ∧ 2 ^ 16 ≤ (65536 : V512).toNat % 2 ^ 64 ∧
    (∃ t, Ready (at_ .mx) 0 [.x 8 false] (waitS 32768 [] []) [32768] t) ∧
    2 ^ 15 ≤ (((waitS 32768 [] []).core 0).topNext + 2 ^ 16 - 1) % 2 ^ 16 + 2 ^ 16 - 32768 ∧
    (∃ t, Ready (at_ .mx) 0 [.x 8 false] (waitS 5 [5] []) [5] t) ∧ (BitVec.ofNat 16 5 ∈ ((waitS 5 [5] []).core 0).tops) ∧
    (BitVec.ofNat 16 5 ∉ ((waitS 5 [] []).core 0).tops ∧ ∀ r ∈ ((waitS 5 [] []).core 0).reports, r.tag.toNat ≠ 5) ∧
    (rep 0).status = 0 ∧ (∀ st, ((waitS 5 [] [rep st]).core 0).reports.find? (fun r => r.tag.toNat == 5) = some (rep st)) ∧ (rep 1).status ≠ 0 :=
  ⟨⟨_, by decide, by decide, rfl⟩, by decide, ⟨_, by decide, by decide, rfl⟩, by decide, ⟨_, by decide, by decide, rfl⟩, by decide,
    by decide, rfl, fun _ => rfl, by decide⟩
theorem test_meets_Twhere : (topsS 0 31 none).Alone ∧ DescsAre (topsS 0 31 none) 0 { mt with aux := 0x10 } (twoSource 0x10) (descAt 0) (descAt 256) (descAt 512) ∧
    topCheck 0x10 0 (some (descAt 0)) (some (descAt 256)) (some (descAt 512)) = none := by decide

/-- T-op 5, a TADD of core 0, at a stage, with its one tile; dome 0 has one live lantern and maps virtual page 0. -/
def topAt (st : TopStage) (op nt : Nat) : Top :=
  { Top.fresh op 0 (.core 0) 3 0 0 false 0 (descAt 0) (descAt 256) (descAt 512) none with stage := st, pages := [(0, 2 ^ 20)], nt := nt }
def panelS (t : Top) (p : List (Nat × W64)) (lant : W64) (d : Dome) : State :=
  { s0 with tops := [(5, t)], ptes := p, domes := [(0, d)], fw := { Firmware.fresh with liveLant := [(0, lant)], ports := [(0, .switch 2 0)] } }
def fresh5 : Top := { topAt .issued 0x10 0 with pages := [] }
theorem test_meets_TopPlacement :
    (∃ pages, TopIs (panelS fresh5 ptes0 1 dome0) 5 fresh5 ∧ fresh5.stage = .issued ∧ fresh5.op < 0x1B ∧
      (fetchFor fresh5 (runGranules ((allOps fresh5.op fresh5.dd fresh5.ds1 fresh5.ds2).flatMap (fun x => x.2.runs)))
        (panelS fresh5 ptes0 1 dome0)).1 = true ∧
      grabAll (panelS fresh5 ptes0 1 dome0) fresh5.op fresh5.aux [] (allOps fresh5.op fresh5.dd fresh5.ds1 fresh5.ds2) [] = .ok pages ∧
      (place (panelS fresh5 ptes0 1 dome0) fresh5.op fresh5.dd fresh5.ds1 (sitesOf fresh5.op fresh5.dd fresh5.ds1 fresh5.ds2 [] pages)).noexec = false ∧
      (place (panelS fresh5 ptes0 0 dome0) fresh5.op fresh5.dd fresh5.ds1 (sitesOf fresh5.op fresh5.dd fresh5.ds1 fresh5.ds2 [] pages)).noexec = true) ∧
    (∃ e, grabAll (panelS fresh5 [] 1 dome0) fresh5.op fresh5.aux [] (allOps fresh5.op fresh5.dd fresh5.ds1 fresh5.ds2) [] = .error e) :=
  ⟨⟨_, by decide, by decide, by decide, by decide, rfl, by decide, by decide⟩, _, rfl⟩
theorem test_meets_TopAccept : let t := topAt .waiting 0x10 1; let s := panelS t ptes0 1 { dome0 with input := [5], tileQ := List.replicate 511 6 }
    TopIs s 5 t ∧ t.stage = .waiting ∧ isCollective t.op = false ∧ (s.dome t.home).input.head? = some 5 ∧ (s.dome t.home).tileQ.length < 512 := by
  decide
theorem test_meets_TileClaim : let t := topAt .queued 0x10 1; let s := panelS t ptes0 1 { dome0 with tileQ := [5] }
    claimantPlace s 0 (.lantern 0) = some (0, 1) ∧ claimantBusy s 0 (.lantern 0) = false ∧ (s.dome 0).userPairs = none ∧
    (s.dome 0).tileQ = 5 :: [] ∧ TopIs s 5 t ∧ t.rise = isRise (.lantern 0) ∧ ticketFor t 0 1 = some 0 ∧ issuerReady s t = true := by decide
/-- The same for an issuer whose store is not yet performed. -/
theorem test_meets_TileClaim_later : let t := { topAt .queued 0x10 1 with ser := 2 }
    let s := { panelS t ptes0 1 { dome0 with tileQ := [5] } with cores := [(0, { core0 with stq := [{ acc0 with kind := .store }] })] }
    issuerReady s t = false ∧ claimantPlace s 0 (.lantern 0) = some (0, 1) ∧ claimantBusy s 0 (.lantern 0) = false ∧ TopIs s 5 t := by decide
theorem test_meets_TileClaim_run : ∃ r, runAny (panelS (topAt .queued 0x10 1) ptes0 1 { dome0 with tileQ := [5] }) (topAt .queued 0x10 1) 0 (.lantern 0) = some r :=
  ⟨_, rfl⟩
def okRun : TileRun := { who := .lantern 0, since := 0, got := true, out := [(2 ^ 20, [1, 2, 3, 4])], under := 0, fail := none }
def badRun : TileRun := { okRun with fail := some { tile := 0, status := 1, cause := 0x14, pos := 0, scale := false, dome := 0, word1 := 0 } }
/-- A tile whose operands are to be read. -/
theorem test_meets_TileComplete_reads : let t := { topAt .queued 0x10 1 with taken := [0], claimed := [(0, { okRun with got := false, out := [] })] }
    let s := panelS t ptes0 1 dome0
    TopIs s 5 t ∧ look t.claimed 0 = some { okRun with got := false, out := [] } ∧ issuerReady s t = true := by decide
def claimed (r : TileRun) (nt : Nat) : Top := { topAt .queued 0x10 nt with taken := [0], claimed := [(0, r)] }
theorem test_meets_TileComplete :
    (TopIs (panelS (claimed badRun 1) ptes0 1 dome0) 5 (claimed badRun 1) ∧ look (claimed badRun 1).claimed 0 = some badRun ∧
      (claimed badRun 1).ended + 1 ≤ (claimed badRun 1).nt ∧ badRun.fail.isSome) ∧
    (TopIs (panelS (claimed okRun 2) ptes0 1 dome0) 5 (claimed okRun 2) ∧ okRun.fail = none) := by decide
def written : TileWrite → Bool
  | .ok _ none => true
  | _ => false
theorem written_of {r : TileWrite} (h : written r = true) : ∃ s', r = .ok s' none := by
  cases r with
  | ok s bad => cases bad with
    | none => exact ⟨s, rfl⟩
    | some _ => cases h
  | wait _ => cases h
theorem test_meets_TileComplete_write : ∃ s', writeTile (panelS (claimed okRun 2) ptes0 1 dome0) (whoClaim okRun.who false) (.tile 5 0)
    (tilePieces okRun.out) (panelS (claimed okRun 2) ptes0 1 dome0) none = .ok s' none := written_of (by decide)
theorem test_meets_TopReport :
    (let t := topAt .done 0x10 1; let s := panelS t ptes0 1 dome0
     TopIs s 5 t ∧ t.stage = .done ∧ t.from_ = .core 0 ∧ t.detMode = false ∧ (s.core 0).launch = t.launch ∧ (s.core 0).mode = .run) ∧
    (∀ w ∈ core0.waits, twaitOf (topAt .done 0x10 1).tag w = false) ∧
    (let k := { core0 with waits := [.twait 3 ⟨.x, 8⟩ none 0] }
     k.mode = .run ∧ k.waits = [.twait (topAt .done 0x10 1).tag ⟨.x, 8⟩ none 0] ∧ (topAt .done 0x10 1).fails = [] ∧ k.finWait = false) := by decide
theorem test_meets_TileElements : (descAt 0).plainInt = true ∧ ((descAt 0).plainInt && ({ descAt 0 with fmt := 10 } : Desc).plainInt) = false ∧
    (0 : BitVec 8).toNat / 64 = 0 ∧ 0 < (descAt 0).e (redAxis 0) ∧ (0 : BitVec 8).toNat / 16 = 0 := by decide
/-- R260: one segment of a TADD adds the elements of its sources. -/
theorem test_tadd_element :
    segVals { m := [(2 ^ 20 + 256, 5), (2 ^ 20 + 512, 6)], place := (2 ^ 20 + ·) } { m := [], place := (2 ^ 20 + ·) } 0x10 0 (descAt 0) (descAt 256) (descAt 512) ⟨⟨0, 0, 0, 0⟩, 1⟩ =
      [.int 11] := rfl

/-- A TBCAST at a stage, its contribution, its result, whether the digests agree, and its failed tries. -/
def coll (st : TopStage) (op : Nat) (r : Option (List Byte)) (ag : Bool) (n : Nat) : Top :=
  { topAt st op 1 with contrib := List.replicate 16 7, result := r, agree := ag, retries := n }
def collS (t : Top) : State := panelS t ptes0 1 dome0
theorem test_meets_CollectiveAccept : let t := coll .waiting 0x22 none false 0
    TopIs (collS t) 5 t ∧ t.stage = .waiting ∧ isCollective t.op = true ∧ issuerReady (collS t) t = true ∧
    ∀ x ∈ t.ds1.runs.flatMap (fun r => physPieces t.pages r.1 r.2.1), (collS t).mustWait { kind := 3, idx := chimeDome t.port, spire := none } x.1 x.2 = false ∧ (collS t).badRead x.1 x.2 = false := by
  decide
theorem test_meets_CollectiveStep : let t := { coll .queued 0x22 none false 0 with sends := false }; let g := coll .queued 0x21 none false 0
    let inp : SwitchInput := ⟨[List.replicate 16 1, List.replicate 16 2], 1, []⟩
    TopIs (collS t) 5 t ∧ t.stage = .queued ∧ t.result = none ∧ switchOf (collS t) t.port = some (2, 0) ∧ inp.ranks.length = 2 ∧
    (∀ c ∈ inp.ranks, c.length = g.contrib.length) ∧ inp.ranks[inp.root]? = some (List.replicate 16 2) ∧ inp.root ≠ 0 ∧
    (List.replicate 16 (2 : Byte)).length = t.contrib.length := by decide
def agreed : Top := coll .queued 0x22 (some (List.replicate 16 2)) true 0
theorem test_meets_DigestConfirm : TopIs (collS agreed) 5 agreed ∧ agreed.agree = true ∧
    ∃ s', writeTile (collS agreed) { kind := 3, idx := 0, spire := none } (.tile 5 0)
      (tilePieces (spread agreed.pages agreed.dd.runs (List.replicate 16 2))) (collS agreed) none = .ok s' none :=
  ⟨by decide +kernel, by decide +kernel, written_of (by decide +kernel)⟩
/-- The third and the last failure, of each kind. -/
theorem test_meets_CollectiveRetry :
    (let t := coll .queued 0x22 none false 2
     TopIs (collS t) 5 t ∧ t.result = none ∧ t.retries < 3) ∧ 3 ≤ (coll .queued 0x22 none false 3).retries ∧
    (let t := coll .queued 0x22 (some []) false 2
     t.result.isSome = true ∧ t.agree = false) := by decide
/-- R408: the digest of one word in step 1. -/
theorem test_digest : digest 1 [5, 0, 0, 0, 0, 0, 0, 0] = 7 := by decide

/-- An E-thread with a vector of zeros in v0 and a step word in v1: a terminal symbol of coefficient 1.0, entry e, depth 1; an entry
of 2049 breaks the format. -/
def stepV (e : Nat) : V512 := BitVec.ofNat 512 (0x3C00 * 2 ^ 32 + e * 2 ^ 64 + 1 * 2 ^ 80)
def pairS (e : Nat) : State :=
  { State.reset with
    pairs := [(0, { Pair.fresh with launch := some 1, loaded := true, e := { Seq.empty with queues := [qof .v 0 [0], qof .v 1 [stepV e]] } })]
    cur := { Cur.fresh with agent := .lanE 0 } }
theorem test_meets_Vrule :
    (pairS 3).cur.agent = .lanE 0 ∧ (∃ t id u, Ready (at_ .vb) 4 [.v ⟨0, false, 10⟩, .v ⟨1, false, 10⟩] (pairS 3) [0, stepV 3] t ∧
      reserve t (.lanE 0) ⟨.x, 63⟩ ((pairS 3).at + 4) = some (id, u)) ∧
    (∃ acc, ruleStep ((pairS 3).pair 0) true true 0 (stepV 3) = .ok (acc, 0, some (3, 1))) ∧
    (∃ acc, ruleStep ((pairS 3).pair 0) true false 0 (stepV 3) = .ok (acc, 0, none)) ∧
    ruleStep ((pairS 3).pair 0) true false 0 (stepV 2049) = .error 0x17 :=
  ⟨by decide, ⟨_, _, _, ⟨by decide, by decide, rfl⟩, rfl⟩, ⟨_, rfl⟩, ⟨_, rfl⟩, rfl⟩

/-! Freezes, interrupts, the report of a trap, rollback, lantern programs. -/

/-- Core 0 whose load is late at cycle 10, and its pair 0 with a late load of its own. -/
def lateAcc : Access := { acc0 with late := 10, land := .entry ⟨.x, 5⟩ 0 3 }
def latePair : Pair :=
  { Pair.fresh with launch := some 1, loaded := true, a := { Seq.empty with vcc := 10 }, ldq := [{ lateAcc with id := 71, src := .lantern 0 }] }
def lateS : State := { on { core0 with ldq := [lateAcc] } with pairs := [(0, latePair)] }
/-- A freeze of core 0 from cycle 5 for that load. -/
def frz0 : Freeze := { group := .core 0, why := .access 0 70, at_ := 10, since := 5, overAt := none }
theorem test_meets_Freezes :
    lateNow lateS (.core 0) = (.access 0 70, 10) :: [] ∧
    (pairRuns (lateS.pair 0) = true ∧ lateNow lateS (pairGroup (lateS.pair 0) 0) = (.pairAccess 0 71, 10) :: []) ∧
    (let s := { lateS with freezes := [frz0] }
     freezeOver s frz0 = false ∧ coreRuns (s.core 0) = true ∧ frz0 ∈ s.freezes ∧ frz0.group = s.groupOf (.core 0) ∧ frz0.at_ ≤ s.vccOf 0) ∧
    (let s := on { core0 with pfAt := [10] }
     coreRuns (s.core 0) = true ∧ powerAsked s 0 = true) := by decide
/-- Pair 0 serves a tile that waits behind a held write for 200 cycles. -/
def stuckS : State :=
  let t := { topAt .queued 0x10 1 with taken := [0], claimed := [(0, { okRun with got := false, out := [] })] }
  { panelS t ptes0 1 { dome0 with held := [{ who := .access 70, addr := 2 ^ 20 + 256, size := 8, since := 0, need := 9 }] } with now := 200 }
theorem test_meets_ServiceFreeze : pairRuns (stuckS.pair 0) = false ∧ lateTile stuckS 0 = some (5, 0) := by decide +kernel
/-- A freeze is over once its load has landed. -/
theorem test_freeze_over : freezeOver s0 frz0 = true := by decide
theorem test_meets_FreezeTimeout : let s := { lateS with freezes := [frz0], now := 800005 }
    s.freezes.find? (fun f => f.group == .core 0 && freezeOld s f) = some frz0 ∧ frz0.since + 800000 ≤ s.now ∧ frz0.why = .access 0 70 := by
  decide +kernel
/-- Core 0 at a bundle boundary with landed queues. -/
def idle : Core := { core0 with seq := { Seq.empty with vcc := 10, pos := 33, nextAt := 10, queues := [qof .x 0 [7]] } }
theorem test_meets_UserInterrupt : let s := on { idle with uistat := 9, uivec := 64 }
    intReady (s.core 0) = true ∧ s.frozen (.core 0) = false ∧ (s.core 0).mode = .run := by decide
/-- R384: with bit [4] set, or without an enabled pending bit, no interrupt is taken. -/
theorem test_no_interrupt : intReady { idle with uistat := 25, uivec := 64 } = false ∧ intReady { idle with uistat := 1, uivec := 64 } = false := by decide
def endedLaunch : Launch := { launch0 with ending := some { status := 6, detail := 0 } }
def under1 (k : Core) (L : Launch) : State := { on { k with launch := some 1 } with launches := [(1, L)] }
theorem test_meets_Reports :
    (let s := under1 { idle with mode := .trap false, cause := 0x85 * 2 ^ 40, faultMask := 32 } launch0
     reportReady (s.core 0) = true ∧ (∀ x ∈ s.cores, x.1 < 0 → ¬ (x.2.launch = (s.core 0).launch ∧ reportReady x.2 = true)) ∧
       (s.core 0).launch = some 1 ∧ look s.launches 1 = some launch0 ∧ launch0.ending = none ∧
       (s.core 0).detMode = false ∧ ∀ pos ∈ allPos, causeByte (s.core 0) pos ≠ 0x19) ∧
    (∃ pos ∈ allPos, causeByte { idle with cause := 0x19 * 2 ^ 40 } pos = 0x19) := by decide
theorem test_meets_Rollback : let s := on { idle with mode := .roll [], snap := some (takeSnap 30 idle) }
    (s.core 0).mode = .roll [] ∧ (s.core 0).mx.fault = none ∧ rollIdle s 0 = true ∧ (∀ f ∈ ([] : List SlotFault), missGone (s.core 0) f = false) ∧
    (s.core 0).snap = some (takeSnap 30 idle) ∧ (takeSnap 30 idle).pendRegs = [] := by decide
theorem test_meets_Stops :
    (let s := on { idle with stopReq := true }
     stopReady (s.core 0) = true ∧ s.frozen (.core 0) = false ∧ launchEnding s (s.core 0) = false ∧ (s.core 0).mode = .run) ∧
    (let s := under1 { idle with stopReq := true } endedLaunch
     launchEnding s (s.core 0) = true ∧ stopOpen (s.core 0) = true ∧ boundary (s.core 0) = true ∧ (s.core 0).mode = .run) := by decide
/-- A launch with pair 0 to load. -/
def lantLaunch : Launch := { launch0 with image := { image0 with lantE := some ([0, 0], []) }, lantDomes := [0], pairs := [0], pairsLeft := [0] }
/-- Pair 0 of launch 1 at the end of a segment, with the token w. -/
def segPair (w : V512) : Pair :=
  { Pair.fresh with launch := some 1, loaded := true, haltE := false, haltA := false, segment := some 1
                    e := { Seq.empty with code := [0, 0], queues := [qof .x 62 [w]] } }
def segS (k : Pair) (L : Launch) : State := { State.reset with pairs := [(0, k)], launches := [(1, L)] }
theorem test_meets_LanternLoad : let s := segS Pair.fresh lantLaunch
    look s.launches 1 = some lantLaunch ∧ lantLaunch.pairsLeft.filter (fun p => p / 64 == 0 && (s.pair p).launch != some 1) ≠ [] ∧
    (s.dome 0).tileQ = [] ∧ (s.dome 0).userPairs = none ∧ lantLaunch.pairsLeft.Nodup ∧ s.memOk := by decide
theorem test_meets_LanternSegments : ∀ w : V512, let s := segS (segPair w) lantLaunch
    segmentReady s 0 = true ∧ (s.pair 0).segment = some 1 ∧
    (s.pair 0).e.entries ⟨.x, 62⟩ = ⟨0, 0, some w, none⟩ :: [] := fun _ => ⟨rfl, rfl, rfl⟩
/-- The three kinds of token at their bounds: bit [63] set, the last position of two bundles, 2^24, and 2^63 − 1. -/
theorem test_meets_LanternSegments_bounds : 2 ^ 63 ≤ (2 ^ 63 : V512).toNat % 2 ^ 64 ∧
    (1 : V512).toNat % 2 ^ 64 < (segPair 1).e.code.length ∧
    2 ^ 24 ≤ (2 ^ 24 : V512).toNat % 2 ^ 64 ∧ (2 ^ 63 - 1 : V512).toNat % 2 ^ 64 < 2 ^ 63 :=
  ⟨by decide, by decide, by decide, by decide⟩
theorem test_meets_LanternEnds :
    (let s := segS { segPair 1 with haltA := true, haltE := true } lantLaunch
     (s.pair 0).launch = some 1 ∧ (s.pair 0).haltA = true ∧ (s.pair 0).haltE = true ∧ pairDrained (s.pair 0) = true ∧
       (s.pair 0).faulted = none ∧ look s.launches 1 = some lantLaunch) ∧
    (let s := segS { segPair 1 with faulted := some ⟨true, 1, 24, 5⟩ } lantLaunch
     (s.pair 0).launch = some 1 ∧ (s.pair 0).faulted = some ⟨true, 1, 24, 5⟩ ∧ look s.launches 1 = some lantLaunch ∧
       lantLaunch.ending = none) := by decide
/-- R309: a token with bit [63] set halts the E-thread. -/
theorem test_token_halts : (match exec (.lanternSegmentEnd 0) (segS (segPair (2 ^ 63)) lantLaunch) with
    | .next t => (t.pair 0).haltE | _ => false) = true := by decide

/-! Commands. -/

theorem homeOk_of {r : HomeRes} (h : (match r with | .ok _ => true | _ => false) = true) : ∃ s', r = .ok s' := by
  cases r with
  | ok s => exact ⟨s, rfl⟩
  | wait _ => cases h
  | err _ => cases h
theorem firmPut_of {r : FirmPut} (h : (match r with | .ok _ => true | _ => false) = true) : ∃ s', r = .ok s' := by
  cases r with
  | ok s => exact ⟨s, rfl⟩
  | wait _ => cases h
  | bad => cases h
theorem writeRes_of {r : WriteRes} (h : (match r with | .ok _ => true | _ => false) = true) : ∃ s', r = .ok s' := by
  cases r with
  | ok s => exact ⟨s, rfl⟩
  | wait _ => cases h
  | err => cases h

/-- A command of hdr that has started. -/
def run1 (i : Instr) : RunCmd := { hdr := hdr, instr := i, done := none, begun := false, prog := 0, sentRec := false, pages := [], lead := 0 }
/-- Queue 0: its ring at virtual 0x9000, one command written, records at the host's byte 0. -/
def queue0 (l : List RunCmd) : CmdQueue :=
  { served := true, ring := 0x9000, nslots := 16, wrptr := 1, rdptr := 0, prio := 0, port := 0, cring := 12 * 2 ^ 48, ncslots := 16, thread := 5,
    leader := some 0, headSince := 0, promoted := 0, running := l, records := 0, window := none, posted := false }
/-- The panel at stage 7 with cores 0 and 1 live and not in the rise pool, virtual page 0 mapped to 2^20, the queue tables at 0x8000. -/
def fw7 : Firmware := { Firmware.fresh with stage := 7, liveCore := [(0, 3)], liveLant := [(0, 1)], pools := [(0, 0)], qtab := 0x8000 }
def panel7 (m : Memory) (l : List RunCmd) : State :=
  { State.reset with fw := fw7, ptes := ptes0, domes := [(0, dome0)], mem := m, queues := [(0, queue0 l)] }
/-- The header of queue 0 (R314), its byte [7:4] of byte 20 holding v. -/
def qhdrBytes (v : Nat) : List Byte :=
  toBytes 0x9000 8 ++ toBytes 16 4 ++ toBytes 1 4 ++ toBytes 0 4 ++ toBytes (v * 16) 4 ++ toBytes (12 * 2 ^ 48) 8 ++ toBytes 16 4 ++ toBytes 5 4 ++
    toBytes 0 24
def qmem (v : Nat) : Memory := Memory.write [] (2 ^ 20 + 0x8000) (qhdrBytes v)
theorem test_meets_Completion : Started (panel7 [] [run1 (.fenceCommand hdr)]) hdr (run1 (.fenceCommand hdr)) := by decide
theorem test_meets_Posts_off : State.reset.fw.stage ≠ 7 := by decide
theorem test_meets_Posts : let s := panel7 (qmem 1) []
    s.fw.stage = 7 ∧ leaderOf s 0 = some 0 ∧ headerGot s 0 = .ok (qhdrBytes 1) ∧ (∃ h, qhdrOf (qhdrBytes 1) = some h) ∧
      qhdrOf (qhdrBytes 3) = none := ⟨by decide, by decide, rfl, ⟨_, rfl⟩, by decide⟩
/-- A queue whose leader of before is gone, with another spire live and with none. -/
theorem test_meets_Handovers : let s := { panel7 (qmem 1) [] with queues := [(0, { queue0 [] with leader := some 5 })] }
    let n := { s with fw := { fw7 with liveCore := [] } }
    (s.fw.stage = 7 ∧ (s.queue 0).leader ≠ leaderOf s 0 ∧ (s.queue 0).served = true ∧ leaderOf s 0 = some 0) ∧
    ((n.queue 0).leader ≠ leaderOf n 0 ∧ leaderOf n 0 = none) := by decide +kernel
/-- R314: byte 20 holds the priority, the port and the version. -/
theorem test_qhdr : (qhdrOf (qhdrBytes 1)).map (fun h => (h.ring, h.nslots, h.wr, h.rd, h.prio, h.thread.toNat)) = some (0x9000, 16, 1, 0, 0, 5) := by
  decide
/-- A FENCE of tag 7 with a record, in slot 0 of the ring, and a word of it with a reserved bit set. -/
def fenceBytes (r : Nat) : List Byte := toBytes (11 + 256 + r) 4 ++ toBytes 7 4 ++ toBytes 0 120
def headS (r : Nat) (k : CmdQueue) : State :=
  { panel7 (Memory.write (qmem 1) (2 ^ 20 + 0x9000) (fenceBytes r)) [] with queues := [(0, k)] }
theorem test_fence_read : decodeCommand 0 0 (fenceBytes 0) =
    { hdr := ⟨0, 0, 11, true, false, 7⟩, instr := .fenceCommand ⟨0, 0, 11, true, false, 7⟩, bad := none } := rfl
/-- R316: a reserved bit of the header is the fault of byte 1. -/
theorem test_fence_bad : (decodeCommand 0 0 (fenceBytes 1024)).bad = some 1 := by decide
theorem test_meets_Arbitration : let k := queue0 []; let s := headS 0 k
    s.fw.stage = 7 ∧ s.queues = [(0, k)] ∧ k.posted = false ∧ k.served = true ∧ k.rdptr ≠ k.wrptr ∧ k.rdptr < 2 ^ 32 ∧ k.prio < 4 ∧
    (s.now - k.headSince) / 3200000 ≤ k.promoted ∧ launchCmd (decodeCommand 0 0 (fenceBytes 0)).instr = none ∧
    startOk k (decodeCommand 0 0 (fenceBytes 0)) = true ∧
    startOk (queue0 [run1 (.fenceCommand hdr)]) (decodeCommand 0 0 (fenceBytes 0)) = false := by decide
def headIs (h : HeadRes) (r : CmdRead) : Bool :=
  match h with
  | .head x => x == r
  | _ => false
theorem head_of {h : HeadRes} {r : CmdRead} (g : headIs h r = true) : h = .head r := by
  cases h with
  | head x => rw [show x = r from by simpa [headIs] using g]
  | none => cases g
  | bad => cases g
theorem test_meets_Arbitration_head : headOf (headS 0 (queue0 [])) 0 = .head (decodeCommand 0 0 (fenceBytes 0)) := head_of (by decide +kernel)
theorem test_meets_Arbitration_write : ∃ s', firmWrite (headS 0 (queue0 [])) 0 0 (hdrVa (headS 0 (queue0 [])) 0 + 16) (toBytes 1 4) = .ok s' :=
  firmPut_of (by decide +kernel)
/-- A completed command of status 0 that asks for no record, and one of status 4. -/
def doneCmd (r : Bool) (st : Nat) : RunCmd := { run1 (.fenceCommand hdr) with hdr := { hdr with wantRec := r }, done := some (st, 9) }
theorem test_meets_Records : let s := panel7 [] [doneCmd false 0]; let t := panel7 [] [doneCmd false 4]
    (s.queue 0).running.find? (fun r => r.hdr.slot == 0 && r.done.isSome) = some (doneCmd false 0) ∧ (doneCmd false 0).done = some (0, 9) ∧
    (doneCmd false 0).hdr.wantRec = false ∧ (doneCmd false 0).hdr.op ≠ 12 ∧
    (t.queue 0).running.find? (fun r => r.hdr.slot == 0 && r.done.isSome) = some (doneCmd false 4) ∧ (4 ≠ 0) := by decide
theorem test_meets_Records_write : ∃ s', homeWrite (panel7 [] []) whoFirm (.command 0 0) (12 * 2 ^ 48) (toBytes 0 32) false = .ok s' :=
  homeOk_of (by decide)
theorem test_meets_Windows : let s := { panel7 [] [] with queues := [(0, { queue0 [] with window := some 5 })], now := 5, irqs := [(0, 9)] }
    (s.queue 0).window = some 5 ∧ 5 ≤ s.now ∧ s.irqs = (0, 9) :: [] := by decide
/-- A window that covers the record, and one that has ended. -/
theorem test_meets_Records_windows : ∀ n ∈ [4, 5], let s := { panel7 [] [] with fw := { fw7 with window := 1 }, queues := [(0, { queue0 [] with window := some 5 })], now := n }
    s.fw.window ≠ 0 ∧ (s.queue 0).window = some 5 ∧ (n = 4 → s.now < 5) ∧ (n = 5 → 5 ≤ s.now) ∧
    (match homeWrite s whoFirm (.command 0 0) (12 * 2 ^ 48) (toBytes 0 32) false with | .ok _ => true | _ => false) = true := by decide
/-- R326: a record's first byte holds its command's tag. -/
theorem test_record : (match exec (.completionRecord 0 0) (panel7 [] [{ doneCmd true 4 with hdr := { hdr with utag := 7 } }]) with
    | .next t => (t.mem.num (12 * 2 ^ 48) 4, t.mem.num (12 * 2 ^ 48 + 6) 1, t.irqs.length) | _ => (0, 0, 0)) = (7, 4, 1) := by decide

/-! Launches. -/

/-- A kernel object of R91: a header, one section, a NEST of one dimension of extent n, permuted as given. -/
def objBytes (n p : Nat) : List Byte :=
  toBytes 0x014F4449 4 ++ toBytes 1 2 ++ toBytes 1 2 ++ toBytes 7 8 ++ toBytes 0 4 ++ toBytes 0 4 ++ toBytes 64 4 ++ toBytes 0 4 ++ toBytes 0 32 ++
    (toBytes 8 4 ++ toBytes 80 4 ++ toBytes 80 4 ++ toBytes 1 4) ++
    (toBytes 1 1 ++ toBytes p 1 ++ toBytes 0 6 ++ toBytes n 4 ++ toBytes 0 68)
def launchS (n p : Nat) : State := panel7 (Memory.write [] (2 ^ 20) (objBytes n p)) [run1 (.launch hdr launchCmd0)]
/-- The same launch of an object at an address that is not mapped, and on a grid of three cores. -/
def farCmd : LaunchCmd := { launchCmd0 with image := 65536 }
def wideCmd : LaunchCmd := { launchCmd0 with gx := 3 }
def imgOf (n p : Nat) : Image := imageOf (objBytes n p)
def imageIs (r : ImageRes) (i : Image) : Bool :=
  match r with
  | .ok x => x == i
  | _ => false
theorem image_of {r : ImageRes} {i : Image} (g : imageIs r i = true) : r = .ok i := by
  cases r with
  | ok x => rw [show x = i from by simpa [imageIs] using g]
  | wait => cases g
  | bad _ => cases g
theorem test_meets_Launch_image : loadImage (launchS 3 0) 0 = .ok (imgOf 3 0) := image_of (by decide +kernel)
theorem test_image : (imgOf 3 0).nestD = 1 ∧ (imgOf 3 0).ext = [3] ∧ (imgOf 3 0).perm = [0] ∧ (imgOf 3 0).id = 7 ∧ permOk (imgOf 3 0) = true := by decide
/-- An object of one code word and a NEST; a core that reloads its code while its launch's image is this one. -/
def codeBytes : List Byte :=
  toBytes 0x014F4449 4 ++ toBytes 1 2 ++ toBytes 2 2 ++ toBytes 7 8 ++ toBytes 0 4 ++ toBytes 0 4 ++ toBytes 64 4 ++ toBytes 0 4 ++ toBytes 0 32 ++
    (toBytes 1 4 ++ toBytes 96 4 ++ toBytes 2 4 ++ toBytes 1 4) ++ (toBytes 8 4 ++ toBytes 104 4 ++ toBytes 80 4 ++ toBytes 1 4) ++
    toBytes 9 8 ++ (toBytes 1 1 ++ toBytes 0 7 ++ toBytes 3 4 ++ toBytes 0 68)
def reloadS : State :=
  { panel7 (Memory.write [] (2 ^ 20) codeBytes) [] with
    cores := [(0, { idle with mode := .reload, launch := some 1 })], launches := [(1, { launch0 with cmd := launchCmd0 })] }
theorem test_meets_Reload : (reloadS.core 0).mode = .reload ∧ (reloadS.core 0).launch = some 1 ∧ (reloadS.launchOf 1).isSome ∧
    loadImage reloadS launchCmd0.image = .ok (imageOf codeBytes) := ⟨by decide, by decide, by decide, image_of (by decide +kernel)⟩
/-- R386: a reload takes the code of the image in memory. -/
theorem test_reload : (match exec (.ibufReload 0) reloadS with | .next t => ((t.core 0).seq.code, (t.core 0).mode) | _ => ([], .free)) = ([9], .run) := by
  decide +kernel
theorem test_meets_Launch_bad_image : loadImage (launchS 3 0) farCmd.image = .bad 0 := rfl
theorem test_meets_Launch_bad_nest : loadImage (launchS 3 1) 0 = .ok (imgOf 3 1) ∧ ¬ (∀ j ∈ (imgOf 3 1).perm, j < (imgOf 3 1).nestD) :=
  ⟨image_of (by decide +kernel), by decide +kernel⟩
theorem test_meets_Launch_grid : Started (launchS 3 0) hdr (run1 (.launch hdr launchCmd0)) ∧ (launchS 3 0).fw.patchHeld = none ∧
    gridOf (launchS 3 0) launchCmd0 = some [0] ∧ gridOf (launchS 3 0) wideCmd = none ∧ gridBusy (launchS 3 0) [0] = false ∧
    (imgOf 3 0).lantA.isNone ∧ (imgOf 3 0).lantE.isNone := by decide +kernel

/-- The same with the overflow area at virtual 2^25, on a large page of dome 0. -/
def bigPtes : List (Nat × W64) := (0x2008, 2 ^ 25 + 0xF) :: ptes0
def launchCmd1 : LaunchCmd := { launchCmd0 with spillovf := 2 ^ 25 }
def launchS1 (n : Nat) : State := { launchS n 0 with ptes := bigPtes, queues := [(0, queue0 [run1 (.launch hdr launchCmd1)])] }
def dispOk (r : DispRes) (n : Nat) : Bool :=
  match r with
  | .ok d => d.grid == [0] && d.ext == [n] && d.grid.length == 1
  | _ => false
theorem disp_of {r : DispRes} {n : Nat} (h : dispOk r n = true) : ∃ d, r = .ok d ∧ d.grid = [0] ∧ d.ext = [n] := by
  cases r with
  | ok d => simp [dispOk] at h; exact ⟨d, rfl, h.1.1, h.1.2⟩
  | wait _ => cases h
  | bad _ _ => cases h
theorem test_meets_Launch_dispatch : ∃ d, checkLaunch (launchS1 3) launchCmd1 = .ok d ∧ d.grid = [0] ∧ d.ext = [3] := disp_of (by decide +kernel)
theorem test_meets_Launch_empty : ∃ d, checkLaunch (launchS1 0) launchCmd1 = .ok d ∧ d.grid = [0] ∧ d.ext = [0] := disp_of (by decide +kernel)
theorem test_meets_Launch_products : product [3] ≠ 0 ∧ product [0] = 0 ∧ [0].Nodup ∧ [0].length = launchCmd1.gx * launchCmd1.gy ∧
    gridBusy (launchS1 3) [0] = false ∧ Started (launchS1 3) hdr (run1 (.launch hdr launchCmd1)) := by decide
theorem test_meets_Launch_unmapped : checkLaunch (launchS 3 0) launchCmd1 = .bad 5 (2 ^ 25) := rfl
/-- A nest of two dimensions of extents 2^31 and 2^31, and one whose indirect extent stands at an address that is not mapped. -/
def nestBytes (mask a : Nat) : List Byte :=
  (objBytes 0 0).take 80 ++ (toBytes 2 1 ++ toBytes 0 1 ++ toBytes 1 1 ++ toBytes 0 4 ++ toBytes mask 1 ++
    toBytes (if mask = 0 then 2 ^ 31 else 0) 4 ++ toBytes (2 ^ 31) 4 ++ toBytes 0 16 ++ toBytes a 8 ++ toBytes 0 40)
def nestS (mask a : Nat) : State := panel7 (Memory.write [] (2 ^ 20) (nestBytes mask a)) [run1 (.launch hdr launchCmd0)]
def extsAre (r : ExtRes) (l : List Nat) : Bool :=
  match r with
  | .ok x => x == l
  | _ => false
theorem exts_of {r : ExtRes} {l : List Nat} (g : extsAre r l = true) : r = .ok l := by
  cases r with
  | ok x => rw [show x = l from by simpa [extsAre] using g]
  | wait => cases g
  | bad _ => cases g
theorem test_meets_Launch_extents : let img := imageOf (nestBytes 0 0)
    loadImage (nestS 0 0) 0 = .ok img ∧ readExtents (nestS 0 0) img (List.range img.nestD) = .ok [2 ^ 31, 2 ^ 31] ∧
    2 ^ 48 - 1 < product [2 ^ 31, 2 ^ 31] := ⟨image_of (by decide +kernel), exts_of (by decide +kernel), by decide⟩
def extBad (r : ExtRes) (va : Nat) : Bool :=
  match r with
  | .bad x => x == va
  | _ => false
theorem extBad_of {r : ExtRes} {va : Nat} (g : extBad r va = true) : r = .bad va := by
  cases r with
  | bad x => rw [show x = va from by simpa [extBad] using g]
  | wait => cases g
  | ok _ => cases g
theorem test_meets_Launch_bad_extent : let img := imageOf (nestBytes 1 65536)
    loadImage (nestS 1 65536) 0 = .ok img ∧ readExtents (nestS 1 65536) img (List.range img.nestD) = .bad 65536 :=
  ⟨image_of (by decide +kernel), extBad_of (by decide +kernel)⟩
/-- R20, R318: the logical core 0 of the grid gets iterations 0 to 2. -/
theorem test_launch : (match exec (.launch hdr launchCmd1) (launchS1 3) with
    | .next t => (((t.core 0).seq.entries ⟨.x, 0⟩).map (·.data), ((t.core 0).seq.entries ⟨.x, 1⟩).map (·.data), (t.core 0).seq.pos)
    | _ => ([], [], 9)) = ([some 0], [some 3], 0) := by decide +kernel

theorem test_meets_Release : let L := { launch0 with released := false }; let s := under1 { core0 with mode := .loaded } L
    look s.launches 1 = some L ∧ L.released = false ∧ L.ending = none ∧ L.detMode = false ∧
    (∀ c ∈ L.active, (s.core c).mode = .loaded ∨ ((s.core c).mode = .stop true ∧ (s.core c).waits = [])) := by decide
/-- The same after a lantern fault (R313). -/
theorem test_meets_Release_lantern : let L := { launch0 with released := false, ending := some { status := 7, detail := 0 } }
    let s := under1 { core0 with mode := .loaded } L
    look s.launches 1 = some L ∧ ∀ c ∈ L.active, (s.core c).mode = .loaded := by decide
theorem test_meets_Free : let s := under1 { idle with mode := .ended } launch0
    coreEmpty s 0 = true ∧ s.memOk ∧ (s.core 0).launch = some 1 ∧ look s.launches 1 = some launch0 := by decide
theorem test_meets_LaunchEnd : let L := { launch0 with active := [] }; let s := { panel7 [] [run1 (.launch hdr launchCmd0)] with launches := [(1, L)] }
    look s.launches 1 = some L ∧ L.active = [] ∧ L.pairsLeft = [] ∧ L.saved = [] ∧ L.preempt = none ∧
    Started s L.hdr (run1 (.launch hdr launchCmd0)) := by decide

/-! The other commands. -/

/-- A TOP's three descriptors (R254) at virtual 0, 64 and 128, of ranges at 256, 512 and 768. -/
def topMem : Memory := Memory.write [] (2 ^ 20) (toBytes (descW 256).toNat 64 ++ toBytes (descW 512).toNat 64 ++ toBytes (descW 768).toNat 64)
def topCmd : TopCmd := ⟨0x10, 0, 0, 64, 128⟩
def cmdS (m : Memory) (i : Instr) : State := panel7 m [run1 i]
theorem test_meets_Top : let s := cmdS topMem (.top hdr topCmd)
    Started s hdr (run1 (.top hdr topCmd)) ∧ readDescs s [0, 64, 128] = .ok [descW 256, descW 512, descW 768] ∧
    readDescs s [65536, 64] = .bad 65536 := ⟨by decide, rfl, rfl⟩
theorem test_meets_Top_refusal : let s := cmdS topMem (.top hdr topCmd)
    topRefusal s topCmd ([descW 256, descW 512, descW 768].map descOf) = none ∧ topRefusal s topCmd ([0, descW 512, descW 768].map descOf) = some 16 := by
  decide
/-- A copy of 8 bytes of virtual page 0, from a page that is not mapped, and to one. -/
theorem test_meets_Copy_pages : let s := cmdS [] (.copy hdr ⟨0, 8192, 8⟩)
    vaPieces s true false 65536 0 8 = .ok [(2 ^ 20, 8)] ∧ vaPieces s false true 65536 8192 8 = .ok [(2 ^ 20 + 8192, 8)] ∧
    vaPieces s true false 65536 65536 8 = .bad 65536 ∧ vaPieces s false true 65536 65536 8 = .bad 65536 := ⟨rfl, rfl, rfl, rfl⟩
def copyRun : RunCmd := { run1 (.copy hdr ⟨0, 8192, 8⟩) with begun := true, pages := [(0, 2 ^ 20), (dstShift, 2 ^ 20)] }
def copyRunS (po : List Nat) : State := { panel7 [] [copyRun] with poison := po }
/-- The agent of that command, led by spire 0. -/
def copyWho0 : Who := { kind := 2, idx := copyRun.lead, spire := some copyRun.lead, own := some (.command 0 0) }
theorem test_meets_Copy_chunk :
    let src := copyPieces (srcPages copyRun.pages) (0 + copyRun.prog) (min (16384 - (8192 + copyRun.prog) % 256) (8 - copyRun.prog))
    Started (copyRunS []) hdr copyRun ∧ (∀ x ∈ src, (copyRunS []).mustWait copyWho0 x.1 x.2 = false) ∧ copyStatus (copyRunS []) src = 0 ∧
    copyStatus (copyRunS [2 ^ 20]) src ≠ 0 ∧ src = [(2 ^ 20, 8)] ∧ copyPieces (dstPages copyRun.pages) 8192 8 = [(2 ^ 20 + 8192, 8)] := by decide
theorem test_meets_Copy_write : ∃ s', writePieces (copyRunS []) copyWho0 (.command 0 0)
    (tilePieces (dealBytes [(2 ^ 20 + 8192, 8)] (toBytes 0 8))) (copyRunS []) = .ok s' := writeRes_of (by decide)
/-- A counter of 0 with a wait for 0 and for 1; one on a page that is not mapped; an earlier command that is open. -/
theorem test_meets_Waitev : let s := cmdS [] (.waitev hdr ⟨8, 0⟩)
    Started s hdr (run1 (.waitev hdr ⟨8, 0⟩)) ∧ s.mustWait whoFirm (2 ^ 20 + 8) 8 = false ∧ s.badRead (2 ^ 20 + 8) 8 = false ∧
    (0 : W64).toNat ≤ s.mem.num (2 ^ 20 + 8) 8 ∧ s.mem.num (2 ^ 20 + 8) 8 < (1 : W64).toNat := by decide
theorem test_meets_Counters : let s := cmdS [] (.waitev hdr ⟨8, 0⟩)
    counterAt s false 8 = .ok [(2 ^ 20 + 8, 8)] ∧ counterAt s true 8 = .ok [(2 ^ 20 + 8, 8)] ∧ counterAt s false 65536 = .bad 65536 := ⟨rfl, rfl, rfl⟩
def secondS (i : Instr) : State := panel7 [] [{ run1 (.fenceCommand hdr) with hdr := { hdr with slot := 1 } }, run1 i]
def sigRun : RunCmd := { run1 (.signal hdr ⟨8, 1, false⟩) with begun := true, pages := [(0, 2 ^ 20 + 8)] }
theorem test_meets_Signal : earlierOpen (secondS (.signal hdr ⟨8, 1, false⟩)) 0 0 = true ∧
    (let s := panel7 [] [sigRun]
     Started s hdr sigRun ∧ sigRun.begun = true ∧ sigRun.pages = [(0, 2 ^ 20 + 8)] ∧ earlierOpen s 0 0 = false) := by decide
def rmwOk (r : HomeGot) (b : List Byte) (f : State → HomeRes) : Bool :=
  match r with
  | .ok bs po s => bs == b && !po && (match f s with | .ok _ => true | _ => false)
  | _ => false
theorem rmw_of {r : HomeGot} {b : List Byte} {f : State → HomeRes} (h : rmwOk r b f = true) : ∃ s₁ s₂, r = .ok b false s₁ ∧ f s₁ = .ok s₂ := by
  cases r with
  | ok bs po s =>
    simp only [rmwOk, Bool.and_eq_true, beq_iff_eq, Bool.not_eq_true'] at h
    obtain ⟨⟨rfl, rfl⟩, h⟩ := h
    obtain ⟨u, hu⟩ := homeOk_of h
    exact ⟨s, u, rfl, hu⟩
  | wait => cases h
  | err _ => cases h
theorem test_meets_Signal_home : ∃ s₁ s₂, homeRead (panel7 [] [sigRun]) { whoFirm with kind := 5, own := some (.command 0 0) } (2 ^ 20 + 8) 8 = .ok (toBytes 0 8) false s₁ ∧
    homeWrite s₁ { whoFirm with kind := 5 } (.command 0 0) (2 ^ 20 + 8) (toBytes 1 8) false = .ok s₂ := rmw_of (by decide)
theorem test_meets_Fences : (let s := cmdS [] (.fenceCommand hdr)
     Started s hdr (run1 (.fenceCommand hdr)) ∧ earlierOpen s 0 0 = false) ∧
    (Started (secondS (.fenceCommand hdr)) hdr (run1 (.fenceCommand hdr)) ∧ earlierOpen (secondS (.fenceCommand hdr)) 0 0 = true) := by decide
theorem test_meets_Setmode : let f : SetmodeCmd := ⟨0, 4⟩; let s := cmdS [] (.setmodeRisePool hdr f)
    Started s hdr (run1 (.setmodeRisePool hdr f)) ∧ (∀ sp ∈ [f.spire], ∀ c ∈ heldCores s, c / 64 ≠ sp) ∧ (run1 (.setmodeRisePool hdr f)).prog = 0 ∧
    (let t := { s with launches := [(1, launch0)] }
     ∃ c ∈ heldCores t, c / 64 = 0) := by decide

/-! Pages and the balloon. -/

/-- MAP of virtual page 65536 to the page at 2^21 of dome 0; of a page past its capacity; of two pages, the second past it. -/
def pages0 : PagesCmd := { va := 65536, count := 1, large := false, read := true, write := true, target := 2 ^ 21 }
def pagesS (f : PagesCmd) (rc : Bool) : State :=
  { panel7 [] [{ run1 (.mapPages hdr f) with sentRec := rc }] with domes := [(0, dome0), (1, dome0)] }
theorem test_meets_Map : let s := pagesS pages0 false
    Started s hdr { run1 (.mapPages hdr pages0) with sentRec := false } ∧ mapRefusal s pages0 = none ∧ oldLeaves s 65536 false = [] ∧
    (∀ x ∈ [(0, 0), (1, pteAddr (s.pte 0 0 65536)), (2, pteAddr (s.pte (pteAddr (s.pte 0 0 65536)) 1 65536))],
      Points (s.pte x.2 x.1 65536)) ∧ pteAddr (s.pte 0 0 65536) % 16384 = 0 ∧ pages0.target < 2 ^ 52 ∧ (entryKeys s 65536).Nodup := by decide
theorem test_meets_Map_refusals : let s := pagesS pages0 false
    mapOk s (s.capOf 0) false = false ∧ mapOk s (s.capOf 0 - 65536) false = true ∧ mapOk s (s.capOf 0 - 65536 + 1 * pageSize false) false = false := by
  decide
/-- Page 0 unmapped or moved, before its recall, after it; and a page that is not mapped. -/
def page0 : PagesCmd := { pages0 with va := 0, target := 1 }
def leaf0 : Leaf := { pa := 2 ^ 20, large := false, read := true, write := true, moving := false }
theorem test_meets_Unmap : (run1 (.mapPages hdr page0)).prog + 1 = page0.count ∧ leafAt (pagesS page0 false) 0 false = some leaf0 ∧
    leafAt (pagesS page0 true) 0 false = some leaf0 ∧ recallsOver (pagesS page0 true) [leaf0] = true ∧
    leafAt (pagesS pages0 false) 65536 false = none := by decide
/-- R333: the leaf that MAP writes. -/
theorem test_map : (match exec (.mapPages hdr pages0) (pagesS pages0 false) with
    | .next t => (t.walk 65536).map (fun l => (l.pa, l.large, l.read, l.write)) | _ => none) = some (2 ^ 21, false, true, true) := by decide

/-- A write that waits for 301 units. -/
def wantW : HeldWrite := { who := .access 70, addr := 2 ^ 20, size := 8, since := 0, need := 301 }
/-- BALLOON of n pages from byte p of dome 0, whose balloon list is l. -/
def balloonS (l : List Nat) : State :=
  { panel7 [] [run1 (.fenceCommand hdr)] with domes := [(0, { dome0 with balloon := l, want := [wantW], poolFree := 300 })] }
theorem test_meets_Balloon : let s := balloonS [0, 2]; let c := s.capOf 0
    Started s hdr (run1 (.fenceCommand hdr)) ∧ c ≤ c ∧ c - 65536 < c ∧ c < c - 65536 + 2 * 65536 ∧ c - 65536 + 1 * 65536 ≤ c ∧
    65536 / 65536 ∉ (s.dome 0).balloon ∧ (0 / 65536 ∈ (s.dome 0).balloon ∧ 0 / 65536 + 1 ∉ (s.dome 0).balloon) := by decide
theorem test_meets_Balloon_reclaim : ∃ n u, (∀ i, i < 1 → 0 / 65536 + i ∈ ((balloonS [0]).dome 0).balloon) ∧
    reclaimPages 0 (balloonPages ⟨0, 0, 1⟩) 0 (balloonS [0]) = (n, u) := ⟨_, _, by decide, rfl⟩
/-- Its take: with no lease on the page, and with one that must be recalled first. -/
theorem test_meets_BalloonTake : let s := balloonS [3]
    let l : Lease := { page := 3 * 65536, large := false, cluster := 0, pinned := false, granted := 0 }
    (s.dome 0).balloon = 3 :: [] ∧ (s.dome 0).waiting = wantW :: [] ∧ (s.dome 0).poolFree < wantW.need ∧ s.memOk ∧ takeable s 0 3 = true ∧
    inPage l.page l.large (0 * 2 ^ 37 + 3 * 65536) = true := by decide
theorem test_meets_Refresh : 32 ≤ lookD ({ dome0 with acts := [(4, 32)] } : Dome).acts 4 0 := by decide

/-! The host and the device registers. -/

theorem test_meets_HostReads : (127 : Nat) < 128 ∧ (8191 : Nat) < 8192 ∧
    paClass (2 ^ 20) = 0 ∧ paClass (2 ^ 51) = 8 ∧ (0xA000100000000 ≤ 0xA000100000000 ∧ 0xA000100000000 < 0xA000200000000) ∧
    12 ≤ paClass (12 * 2 ^ 48) := by decide
theorem got_of {r : HomeGot} {b : List Byte} (h : rmwOk r b .ok = true) : ∃ s', r = .ok b false s' :=
  let ⟨s', _, hr, _⟩ := rmw_of h
  ⟨s', hr⟩
theorem test_meets_HostReads_home : ∃ s', homeRead (panel7 [] []) whoFirm (2 ^ 20) 8 = .ok (toBytes 0 8) false s' := got_of (by decide)
theorem test_meets_HostWrites : (63 : Nat) < 64 ∧ (toBytes 0 8).length = 8 ∧ 0xA000100000000 + 8 * 64 < 0xA000200000000 ∧
    offRdptr (panel7 [] []) (2 ^ 20) 8 ∧ (2 ^ 20) % 8 = 0 := ⟨by decide, by decide, by decide, fun q h => by simp [State.noteHdr, panel7, fw7, Firmware.fresh] at h, by decide⟩
theorem test_meets_HostWrites_home : ∃ s', homeWrite (panel7 [] []) whoFirm (.access 0) (2 ^ 20) (toBytes 1 8) false = .ok s' :=
  homeOk_of (by decide)
/-- R398: an 8-byte write of a post address below the 64 queues posts. -/
theorem test_host_post : (match exec (.hostWindowWrite 0xA000100000000 (toBytes 0 8)) (panel7 (qmem 1) []) with
    | .next t => t.hostReads | _ => []) = [(0xA000100000000, some [])] := by decide
/-- R211: DLCAP reads 1907 after reset. -/
theorem test_host_dlcap : (match exec (.hostWindowRead 0x9000000000008 8) State.reset with
    | .next t => t.hostReads.map (fun x => x.2.map ofBytes) | _ => []) = [some 1907] := by decide
def lowNote (d : Nat) : Note := { code := 0x10, source := 0, index := d, w0 := 0, w1 := 0 }
theorem test_meets_Dstat : let s := { panel7 [] [] with domes := [(0, { dome0 with pendLow := true })], notes := [lowNote 1] ++ lowNote 0 :: [] }
    (2 : W64).getLsbD 1 = true ∧ (2 : W64).getLsbD 2 = false ∧ (s.dome 0).pendLow = true ∧ s.notes = [lowNote 1] ++ lowNote 0 :: [] ∧
    (lowNote 0).code = 0x10 ∧ (lowNote 0).index = 0 ∧ (∀ m ∈ ([] : List Note), ¬ (m.code = 0x10 ∧ m.index = 0)) := by decide
theorem test_meets_Monitors : let s := { s0 with spireMon := [(0, { ctl := 5, cnt := 3, min := 9, max := 0, hist := [], last := 0, alert := 0, wrote := none, took := none })] }
    let k := s.monitor (.spire 0 0)
    k.on = true ∧ k.source = 2 ∧ k.took ≠ some s.now ∧ k.wrote ≠ some s.now ∧ { k with wrote := some s.now }.wrote = some s.now ∧ (0 = (s.core (64 * 0 + k.agent)).ldq.length) ∧ (State.reset.monitor (.spire 0 0)).on = false := by decide
theorem test_meets_Bootctl : let s := { State.reset with fw := { Firmware.fresh with stage := 6 } }
    (1 : W64).getLsbD 0 = true ∧ s.fw.stage = 6 ∧ (0 : W64).getLsbD 0 = false ∧ s.fw.patchStat.toNat % 4 ≠ 1 := by decide
/-- The page of an overlay that is being moved. -/
theorem test_meets_Patch_wait : readPatch { panel7 [] [] with ptes := (0x3000, 2 ^ 20 + 0x1F) :: ptes0 } 0 = .wait := by rfl
theorem test_meets_Patch_refuse : readPatch (panel7 [] []) 65536 = .refuse 1 := rfl
/-- An object of a patch overlay: DATA holds version 1 alone, SIGN a signature of zeros by key 0. -/
def patchBytes : List Byte :=
  toBytes 0x014F4449 4 ++ toBytes 1 2 ++ toBytes 2 2 ++ toBytes 7 8 ++ toBytes 4 4 ++ toBytes 0 4 ++ toBytes 64 4 ++ toBytes 0 4 ++ toBytes 0 32 ++
    (toBytes 10 4 ++ toBytes 96 4 ++ toBytes 4 4 ++ toBytes 4 4) ++ (toBytes 15 4 ++ toBytes 104 4 ++ toBytes 72 4 ++ toBytes 1 4) ++
    toBytes 1 8 ++ toBytes 0 72
/-- Where the ROM holds the key and the signature verifies, the overlay is accepted. -/
def firmIs (r : FirmGot) (bs : List Byte) : Bool :=
  match r with
  | .ok x => x == bs
  | _ => false
theorem firm_of {r : FirmGot} {bs : List Byte} (g : firmIs r bs = true) : r = .ok bs := by
  cases r with
  | ok x => rw [show x = bs from by simpa [firmIs] using g]
  | wait => cases g
  | bad _ => cases g
theorem test_meets_Patch_accept (h1 : Config.romKey 0 = true)
    (h2 : Config.sm2Verify 0 (Config.sm3 (patchBytes.take 104)) (toBytes 0 64) = true) :
    readPatch (panel7 (Memory.write [] (2 ^ 20) patchBytes) []) 0 = .accept 1 [] := by
  have e : readObject (panel7 (Memory.write [] (2 ^ 20) patchBytes) []) 0 = .ok patchBytes := firm_of (by decide +kernel)
  have k : BitVec.ofNat 64 (bytesAt (bytesOfSect patchBytes (sectsOf patchBytes) 15) 64 8) = 0 := by decide +kernel
  have o : ((sectBy (sectsOf patchBytes) 15).map (·.off) |>.getD 0) = 104 := by decide +kernel
  have g : (bytesOfSect patchBytes (sectsOf patchBytes) 15).take 64 = toBytes 0 64 := by decide +kernel
  have d : bytesOfSect patchBytes (sectsOf patchBytes) 10 = toBytes 1 4 := by decide +kernel
  simp only [readPatch, e]
  rw [if_neg (by decide +kernel)]
  simp only [checkPatch, k, o, g, d, h1, h2]
  rfl
theorem test_meets_Attest (bs : List Byte) : ∃ s', homeWrite (panel7 [] []) whoFirm (.firm (12 * 2 ^ 48)) (12 * 2 ^ 48) bs false = .ok s' := ⟨_, rfl⟩
/-- A report that waits behind a held write of its dome. -/
def attestS : State := { panel7 [] [] with domes := [(0, { dome0 with held := [wantW] })] }
theorem test_meets_Attest_waits (bs : List Byte) (h : bs.length = 208) :
    homeWrite attestS whoFirm (.firm (2 ^ 20)) (2 ^ 20) bs false = .wait attestS := by
  have k : homeKnown attestS (2 ^ 20) 208 = true := by decide +kernel
  have d : (stepsOf (2 ^ 20) 208 256).any attestS.donatedAt = false := by decide +kernel
  have o : heldOver attestS (keepsArrival (attestS.dome (domeOf (2 ^ 20))) (.firm (2 ^ 20)) whoFirm) (some (.firm (2 ^ 20))) (2 ^ 20) 208 = true := by decide +kernel
  have c : (paClass (2 ^ 20) == 0) = true := by decide
  rw [homeWrite, h, k, c, domeWrite, d, o, Bool.or_true, Bool.true_or, Bool.true_or]; rfl
/-- The notification queue's header at virtual 0x100: 16 slots at physical 2^20 + 4096, one written. -/
def noteHdrBytes (wr : Nat) : List Byte :=
  toBytes (2 ^ 20 + 4096) 8 ++ toBytes 16 4 ++ toBytes wr 4 ++ toBytes 0 4 ++ toBytes 0 12
def noteS (wr : Nat) : State :=
  { panel7 (Memory.write [] (2 ^ 20 + 0x100) (noteHdrBytes wr)) [] with fw := { fw7 with nqhdr := 0x100 }, notes := [⟨2, 0, 0, 0, 0⟩] }
def noteHdr1 (wr : Nat) : NoteHdr := { pa := 2 ^ 20 + 0x100, ring := 2 ^ 20 + 4096, nslots := 16, wr := wr, rd := 0, thr := 0, port := 0, thread := 0 }
/-- One record in the ring, and a full ring. -/
theorem test_meets_Notifications :
    ((noteS 1).notes = ⟨2, 0, 0, 0, 0⟩ :: [] ∧ (noteS 1).noteHdr = some (noteHdr1 1) ∧ used32 (noteHdr1 1).wr (noteHdr1 1).rd < (noteHdr1 1).nslots ∧
      (⟨2, 0, 0, 0, 0⟩ : Note).code ≠ 0x10 ∧ (⟨2, 0, 0, 0, 0⟩ : Note).code ≠ 0x11) ∧
    ((noteS 16).noteHdr = some (noteHdr1 16) ∧ (noteHdr1 16).nslots ≤ used32 (noteHdr1 16).wr (noteHdr1 16).rd) := by decide
theorem test_meets_Notifications_write : ∃ s₁, homeWrite (noteS 1) whoFirm (.firm ((noteHdr1 1).pa + 12)) ((noteHdr1 1).pa + 12) (toBytes 2 4) false = .ok s₁ :=
  homeOk_of (by decide)
def twoOk (r : HomeRes) (f : State → HomeRes) : Bool :=
  match r with
  | .ok s => (match f s with | .ok _ => true | _ => false)
  | _ => false
theorem two_of {r : HomeRes} {f : State → HomeRes} (h : twoOk r f = true) : ∃ s₁ s₂, r = .ok s₁ ∧ f s₁ = .ok s₂ := by
  cases r with
  | ok s => obtain ⟨u, hu⟩ := homeOk_of h; exact ⟨s, u, rfl, hu⟩
  | wait _ => cases h
  | err _ => cases h
def slotAt : Nat := 2 ^ 20 + 4096 + 32
theorem test_meets_Notifications_write2 : ∃ s₁ s₂, homeWrite (noteS 1) whoFirm (.firm ((noteHdr1 1).pa + 12)) ((noteHdr1 1).pa + 12) (toBytes 2 4) false = .ok s₁ ∧
    homeWrite s₁ whoFirm (.firm slotAt) slotAt (toBytes 2 32) false = .ok s₂ := two_of (by decide +kernel)
theorem test_meets_Notifications_rdptr : ∃ s', homeWrite (noteS 1) whoFirm (.access 0) ((noteHdr1 1).pa + 16) (toBytes 1 4) false = .ok s' :=
  homeOk_of (by decide)

/-! Resets, faults, links. -/

def boot (l : List Nat) : BringUp := { flash := [], liveCore := [], liveLant := [], adders := l, toffs := [], ports := [], pages := [], noLead := [] }
theorem test_meets_PanelReset : State.reset.memOk ∧ (∀ a ∈ (boot [4]).adders, a + 1 ≤ 5) ∧ (∃ a ∈ (boot [5]).adders, 5 < a + 1) := by decide
theorem test_meets_DieReset : let s := under1 core0 launch0
    s.memOk ∧ look s.launches 1 = some launch0 ∧ launch0.ending = none ∧ (∃ c ∈ launch0.active, c / 64 = 0) ∧
    (∀ c ∈ launch0.active, (s.core c).launch = some 1) := by decide
theorem test_meets_Retirement : (under1 core0 launch0).launches ≠ [] ∧ (panel7 [] []).launches = [] ∧ 1 ∈ (panel7 [] []).liveCores (1 / 64) := by decide
theorem test_meets_PairRetirement : (panel7 [] []).launches = [] ∧ 0 % 64 ∈ (panel7 [] []).livePairs (0 / 64) := by decide
/-- An error for the host and for a peer. -/
theorem test_meets_ErrorReplies : ∀ src ∈ [Source.host, .peer 3],
    let y : Reply := { acc := { acc0 with src := src }, data := 0, poison := true, abandoned := true, retry := false, resumeAt := 0 }
    let s := { s0 with reps := [y] }
    s.reps.find? (fun r => r.acc.id == 70) = some y ∧ y.poison = true ∧ y.acc.src = src := by decide
theorem test_meets_EccErrors : let s := { panel7 [] [] with domes := [(0, { dome0 with blocks := [(blockOf (2 ^ 20), { s := 1, donated := false, ballooned := false, home := 0, ovf := [] })] })] }
    paClass (2 ^ 20) = 0 ∧ homeKnown s (2 ^ 20) 1 = true ∧ s.donatedAt (2 ^ 20) = false ∧ s.poisoned (2 ^ 20) = false ∧
    ((s.dome (domeOf (2 ^ 20))).block (blockOf (2 ^ 20))).s ≠ 0 ∧ ((s.dome 0).block 0).s = 0 ∧ 4095 < spSize 0 ∧
    paClass (2 ^ 51) = 8 ∧ homeKnown s (2 ^ 51) 1 = true ∧
    0 < ((withSeq { seq0 with dict := [0] }).core 0).seq.dict.length := by decide
/-- A held write of each kind, 800,000 cycles old. -/
def heldW (w : Writer) : HeldWrite := { who := w, addr := 2 ^ 20, size := 8, since := 0, need := 0 }
theorem test_meets_Abandons : ∀ w ∈ [Writer.access 70, .firm 5],
    let s := { homeS [] [] 0 storeA with domes := [(0, { dome0 with held := [heldW w] })], now := 800000 }
    (s.dome 0).held.find? (fun h => h.since + 800000 ≤ s.now) = some (heldW w) ∧ s.reqs.find? (fun x => x.id == 70) = some storeA := by decide
theorem test_meets_Peers : paClass (2 ^ 20) = 0 ∧ paClass (2 ^ 51) ≠ 0 ∧
    (let s := panel7 [] []
     s.pageOk (2 ^ 20) false = true ∧ recallOver s (2 ^ 20) = false ∧ (s.dome (domeOf (2 ^ 20))).leases.length < 32768) ∧
    (let s := { s0 with fw := { fw7 with ports := [(3, .peer)], portUp := [(3, true)] } }
     let t := { s0 with fw := { fw7 with ports := [(3, .peer)], portUp := [(3, false)] } }
     lookD s.fw.portUp 3 false = true ∧ lookD t.fw.portUp 3 false = false ∧ lookD t.fw.ports 3 .none ≠ .none) := by decide
theorem test_meets_Peers_home : (∃ s₁, homeRead (panel7 [] []) (whoPeer 3 4) (2 ^ 20) 8 = .ok (toBytes 0 8) false s₁) ∧
    (∃ s₁, homeWrite (panel7 [] []) (whoPeer 3 4) (.access 0) (2 ^ 20) (toBytes 1 8) false = .ok s₁) :=
  ⟨got_of (by decide), homeOk_of (by decide)⟩
theorem test_meets_Peers_atomic : ∃ s₁ s₂, homeRead (panel7 [] []) (whoPeer 3 5) (2 ^ 20) 8 = .ok (toBytes 0 8) false s₁ ∧
    homeWrite s₁ (whoPeer 3 5) (.access 0) (2 ^ 20) (toBytes 1 8) false = .ok s₂ := rmw_of (by decide)
theorem test_meets_Peers_swapv : ∃ s₁ s₂, homeRead (panel7 [] []) (whoPeer 3 5) (2 ^ 20) 64 = .ok (toBytes 0 64) false s₁ ∧
    homeWrite s₁ (whoPeer 3 5) (.access 0) (2 ^ 20) (toBytes 1 64) false = .ok s₂ := rmw_of (by decide)

/-! The step. -/

/-- A bundle of one SC slot, ADD x2 ← x0 + x1 (R118), in a dictionary of one entry. -/
def addBundle : Bundle := { hdr := { unHdr 0 with mask := 1#6 <<< posBit .sc }, slots := [(.sc, .add ⟨.sc, false, 0, false⟩ ⟨2, 0, 1, true, true, 0, 0⟩)] }
def addWord : Nat := 19701003098770649263624589081888487374783601223967142633086577102704525602739684211355010559706975959972045089969249
theorem test_bundle_check : bundleCheck addWord = addWord % 65536 := by decide +kernel
def runSeq : Seq := { seq0 with code := [0], dict := [BitVec.ofNat 384 addWord], pos := 0, nextAt := 10 }
def runS : State := { on { core0 with seq := runSeq } with agenda := [.bundle (.core 0)] }
def placed0 (s : State) (a : Agent) : State := let u := settle a { s with agenda := [] }
  { u with cur := { Cur.fresh with agent := a, pos := (u.seq a).pos } }
theorem test_meets_Step_bundle : agentOk (.core 0) = true ∧ mayIssue { runS with agenda := [] } (.core 0) = true ∧
    nextAckFault (settle (.core 0) { runS with agenda := [] }) (.core 0) = none ∧ beyondEnd (placed0 runS (.core 0)) 0 = false ∧
    overruns (placed0 runS (.core 0)) (.core 0) = false := by decide
theorem test_meets_Step_fetch : StandsAt ((placed0 runS (.core 0)).seq (.core 0)) 0 addWord 1 (some 0) := by decide +kernel
theorem bundle_of {e : Except (List SlotFault) Bundle} {b : Bundle} (h : e.toOption = some b) : e = .ok b := by
  cases e with
  | ok x => cases h; rfl
  | error _ => cases h
theorem test_meets_Step_decode : decodeAt (placed0 runS (.core 0)) (.core 0) addWord (some 0) = .ok addBundle := bundle_of (by decide +kernel)
theorem test_meets_Step_others : mayIssue { s0 with cores := [] } (.core 0) = false ∧ agentOk (.core 8192) = false := by decide
/-- The URET of routine 64 as the next microinstruction (R162). -/
theorem test_meets_Step_micro : let s := State.reset.withFetchWord 32 0x68000000
    s.agenda = .micro 0 :: [] ∧ (∃ m, (s.mx 0).mseq = some m ∧ routineCode (s.mx 0) m.routine = some [0x68000000] ∧ m.pos = 0) ∧
    decodeMicro (0x68000000 : BitVec 32).toNat = some .uret ∧ decodeTableWord 32 0x68000000 = some .uret :=
  ⟨by decide, ⟨_, rfl, by decide, by decide⟩, by decide, by decide⟩
theorem test_meets_Step_phase : ∃ t, exec (.add (at_ .sc) s3) s0 = .next t := ⟨_, rfl⟩
theorem test_meets_Tick : tickReady { State.reset with agenda := [] } = true ∧
    tickReady { runS with agenda := [] } = false := by decide
/-- A step over the bundle ADD: x2 gets 7 + 5, the next position is 1. -/
theorem test_step_add : (match step runS with
    | .next t => ((t.core 0).seq.pos, (t.entries (.core 0) ⟨.x, 2⟩).map (·.data)) | _ => (0, [])) = (1, [some 5, some 12]) := by decide +kernel
/-- R348: a clock turn adds one cycle. -/
theorem test_tick : (match step { State.reset with agenda := [.cycle] } with | .next t => t.now | _ => 0) = 1 := by decide
/-- R118: the word of ADD meets the hypotheses of the encodings' statement. -/
theorem test_meets_Encodings : let x := Instr.add ⟨.sc, false, 0, false⟩ ⟨2, 0, 1, true, true, 0, 0⟩
    preOf x = some ⟨.sc, false, 0, false⟩ ∧ legal .core x = true ∧ accepts .core .sc x = true ∧ encodeMicro Instr.uret ≠ 2 ^ 32 ∧ legal .core .uret = true := by
  decide
theorem test_meets_Canonical : State.reset.memOk ∧ ∃ t, step { State.reset with agenda := [.cycle] } = .next t := ⟨by decide, _, rfl⟩
/-- R114 at the limits: −32768 by −1, 7 by 2, 7 by 0. -/
theorem test_meets_Division : ∃ t, Ready (at_ .sc) 0 [.x 0 false, .x 1 false] s0 [7, 5] t := ⟨_, by decide, by decide, rfl⟩
theorem test_division_limits : asInt true 16 0x8000 = -2 ^ 15 ∧ asInt true 16 0xFFFF = -1 ∧ asInt true 16 5 ≠ 0 := by decide
/-- R22's worked case: 10 iterations over 4 cores. -/
theorem test_slices : (List.range 4).map (sliceOf 10 4) = [(0, 3), (3, 3), (6, 2), (8, 2)] := by decide

/-! A context area: virtual 0 to 2^25 on a large page of host memory, with a large page of dome 0 behind it. -/

def ptesH : List (Nat × W64) := [(0, 0x4001), (0x4000, 0x2001), (0x2000, 12 * 2 ^ 48 + 0xF), (0x2008, 2 ^ 25 + 0xF)]
def leafH : Leaf := { pa := 12 * 2 ^ 48, large := true, read := true, write := true, moving := false }
theorem walkH {s : State} (h : s.ptes = ptesH) {va : Nat} (hv : va < 2 ^ 25) : s.walk va = some leafH := by
  have e0 : pteIdx 0 va = 0 := by simp only [pteIdx]; omega
  have e1 : pteIdx 1 va = 0 := by simp only [pteIdx]; omega
  have e2 : pteIdx 2 va = 0 := by simp only [pteIdx]; omega
  have p0 : s.pte 0 0 va = 0x4001 := by simp only [State.pte, e0, h]; rfl
  have p1 : s.pte 0x4000 1 va = 0x2001 := by simp only [State.pte, e1, h]; rfl
  have p2 : s.pte 0x2000 2 va = 12 * 2 ^ 48 + 0xF := by simp only [State.pte, e2, h]; rfl
  have a0 : pteAddr 0x4001 = 0x4000 := by decide
  have a1 : pteAddr 0x2001 = 0x2000 := by decide
  unfold State.walk
  simp only [p0, a0, p1, a1, p2]
  rfl
theorem translateH {s : State} (h : s.ptes = ptesH) {va : Nat} (hv : va < 2 ^ 25) : s.translate va = some (12 * 2 ^ 48 + va, leafH) := by
  have e : va % pageSize leafH.large = va := Nat.mod_eq_of_lt hv
  rw [State.translate, walkH h hv, Option.map_some, e]; rfl

def InArea (lo : Nat) (x : Nat × Nat) : Prop := 12 * 2 ^ 48 + lo ≤ x.1 ∧ x.1 + x.2 ≤ 12 * 2 ^ 48 + 2 ^ 25 + 65536
theorem piecesH {s : State} (h : s.ptes = ptesH) (rd wr : Bool) {step : Nat} (st : step ≤ 65536) (hi lo : Nat) : ∀ L : List Nat,
    (∀ g ∈ L, max lo g < 2 ^ 25) → ∃ ps, pieceList s rd wr step hi lo L = .ok ps ∧ (∀ x ∈ ps, InArea lo x) ∧
      ps.map (·.2) = L.map (fun g => min hi (g + step) - max lo g)
  | [], _ => ⟨[], rfl, by simp, rfl⟩
  | g :: L, hL => by
    have hg := hL g (by simp)
    obtain ⟨ps, hp, hx, hs⟩ := piecesH h rd wr st hi lo L (fun y hy => hL y (by simp [hy]))
    refine ⟨(12 * 2 ^ 48 + max lo g, min hi (g + step) - max lo g) :: ps, ?_, ?_, by simp [hs]⟩
    · have g56 : max lo g < 2 ^ 56 := by omega
      simp only [pieceList, if_pos g56, translateH h hg, hp, leafH, Bool.not_true, Bool.and_false, Bool.or_self]
      rfl
    · intro x hx'
      rcases List.mem_cons.mp hx' with rfl | hx'
      · constructor <;> simp only <;> omega
      · exact hx x hx'
theorem mem_steps {a n step g : Nat} (hs : 0 < step) (h : g ∈ stepsOf a n step) : max a g < a + n ∨ max a g = a := by
  simp only [stepsOf, List.mem_map, List.mem_range] at h
  obtain ⟨i, hi, rfl⟩ := h
  have h1 : i * step ≤ (a % step + n + step - 1) - step := by
    have : (i + 1) * step ≤ a % step + n + step - 1 := Nat.le_trans (Nat.mul_le_mul_right _ hi) (Nat.div_mul_le_self _ _)
    rw [Nat.succ_mul] at this; omega
  have h2 := Nat.div_add_mod a step
  rw [Nat.mul_comm] at h2
  omega
/-- Pieces of consecutive steps add up to no more than the range they are cut from. -/
theorem sum_steps (lo hi b st : Nat) (h : lo ≤ hi) : ∀ m : Nat,
    (((List.range m).map (fun i => b + i * st)).map (fun g => min hi (g + st) - max lo g)).sum ≤ min hi (max lo (b + m * st)) - min hi (max lo b)
  | 0 => by simp
  | m + 1 => by
    have ih := sum_steps lo hi b st h m
    have e : b + (m + 1) * st = b + m * st + st := by rw [Nat.succ_mul]; omega
    have k : b ≤ b + m * st := Nat.le_add_right _ _
    rw [List.range_succ, List.map_append, List.map_append, List.sum_append, e]
    simp only [List.map_cons, List.map_nil, List.sum_cons, List.sum_nil]
    generalize b + m * st = x at *
    omega
theorem vaPiecesH {s : State} (h : s.ptes = ptesH) (rd wr : Bool) {step : Nat} (h0 : 0 < step) (st : step ≤ 65536) {va n : Nat} (hv : va < 2 ^ 25)
    (hn : va + n ≤ 2 ^ 25) : ∃ ps, vaPieces s rd wr step va n = .ok ps ∧ (∀ x ∈ ps, InArea va x) ∧ (ps.map (·.2)).sum ≤ n := by
  obtain ⟨ps, hp, hx, hs⟩ := piecesH h rd wr st (va + n) va (stepsOf va n step) (fun g hg => by have := mem_steps h0 hg; omega)
  refine ⟨ps, hp, hx, ?_⟩
  have := sum_steps va (va + n) (va / step * step) step (by omega) ((va % step + n + step - 1) / step)
  rw [hs]
  simp only [stepsOf]
  omega
theorem class12 {a : Nat} (h1 : 12 * 2 ^ 48 ≤ a) (h2 : a < 13 * 2 ^ 48) : paClass a = 12 := by simp only [paClass]; omega
theorem read_length (m : Memory) : ∀ n a : Nat, (m.read a n).length = n
  | 0, _ => rfl
  | n + 1, a => by simp only [Memory.read, List.length_cons, read_length m n]
theorem flat_length (m : Memory) : ∀ ps : List (Nat × Nat), (ps.flatMap (fun x => m.read x.1 x.2)).length = (ps.map (·.2)).sum
  | [] => rfl
  | x :: ps => by simp only [List.flatMap_cons, List.length_append, read_length, flat_length m ps, List.map_cons, List.sum_cons]
/-- A unit of the header that cannot be read, before everything else of the area. -/
def badHdr : Nat := 12 * 2 ^ 48 + 65560
theorem firmReadH {s : State} (h : s.ptes = ptesH) (hr : s.reqs = []) (hb : s.bad = [badHdr]) {va n : Nat} (h0 : 131072 ≤ va) (hv : va < 2 ^ 25)
    (hn : va + n ≤ 2 ^ 25) : ∃ bs, firmRead s va n = .ok bs ∧ bs.length ≤ n := by
  obtain ⟨ps, hp, hx, hl⟩ := vaPiecesH h true false (step := 64) (by decide) (by decide) hv hn
  have c : ∀ x ∈ ps, paClass x.1 = 12 := fun x m => by
    have := hx x m; simp only [InArea] at this; exact class12 (by omega) (by omega)
  have b1 : ps.any (fun x => s.badRead x.1 x.2) = false := by
    rw [List.any_eq_false]; intro x m
    have := (hx x m).1
    have u : unitSize badHdr = 8 := by decide
    have nb : ¬ x.1 < badHdr + 8 := by simp only [badHdr]; omega
    simp [State.badRead, homeKnown, State.donatedAt, State.badUnder, c x m, hb, u, nb]
  have b2 : ps.any (fun x => s.mustWait whoFirm x.1 x.2) = false := by
    rw [List.any_eq_false]; intro x m
    simp [State.mustWait, c x m, arrivedOver, hr]
  exact ⟨_, by simp only [firmRead, hp, piecesGot, firmBytes, b1, b2]; rfl, by rw [flat_length]; exact hl⟩
/-- The pieces that were read for a list of places: as many, each at its place, with no more bytes than were asked for. -/
def Bounded : List (Nat × List Byte) → List (Nat × Nat × Nat) → Prop
  | [], [] => True
  | b :: bs, x :: l => (b.1 = x.1 ∧ b.2.length ≤ x.2.2) ∧ Bounded bs l
  | _, _ => False
/-- Reads of the area answer, with no more bytes than were asked for. -/
theorem readAllH {s : State} (h : s.ptes = ptesH) (hr : s.reqs = []) (hb : s.bad = [badHdr]) : ∀ L : List (Nat × Nat × Nat),
    (∀ x ∈ L, 131072 ≤ x.2.1 ∧ x.2.1 < 2 ^ 25 ∧ x.2.1 + x.2.2 ≤ 2 ^ 25) →
    ∃ bs, readAll s L = .ok bs ∧ Bounded bs L
  | [], _ => ⟨[], rfl, trivial⟩
  | x :: L, hL => by
    have hx := hL x (by simp)
    obtain ⟨b, hb', hl⟩ := firmReadH h hr hb hx.1 hx.2.1 hx.2.2
    obtain ⟨r, e, hf⟩ := readAllH h hr hb L (fun y hy => hL y (by simp [hy]))
    exact ⟨(x.1, b) :: r, by simp only [readAll, hb', e], ⟨rfl, hl⟩, hf⟩

theorem mem_joinRuns : ∀ (l : List (Nat × List Byte)) {lo hi : Nat}, (∀ x ∈ l, lo ≤ x.1 ∧ x.1 + x.2.length ≤ hi) →
    ∀ x ∈ joinRuns l, lo ≤ x.1 ∧ x.1 + x.2.length ≤ hi
  | [], _, _, _ => by simp [joinRuns]
  | (a, bs) :: l, lo, hi, h => by
    have ih := mem_joinRuns l (fun x m => h x (by simp [m]))
    have h0 := h (a, bs) (by simp)
    simp only [joinRuns]
    cases hj : joinRuns l with
    | nil => simp only [List.mem_singleton, forall_eq]; exact h0
    | cons y r =>
      obtain ⟨b, cs⟩ := y
      rw [hj] at ih
      have hb := ih (b, cs) (by simp)
      simp only at hb h0
      by_cases e : a + bs.length = b
      · simp only [beq_iff_eq, e, if_true]
        intro x m
        rcases List.mem_cons.mp m with rfl | m
        · simp only [List.length_append]; omega
        · exact ih x (by simp [m])
      · simp only [beq_iff_eq, e, if_false]
        intro x m
        rcases List.mem_cons.mp m with rfl | m
        · exact h0
        · exact ih x m
theorem mem_tilePieces {l : List (Nat × List Byte)} {lo hi : Nat} (h : ∀ x ∈ l, lo ≤ x.1 ∧ x.1 + x.2.length ≤ hi) :
    ∀ x ∈ tilePieces l, lo ≤ x.1 ∧ x.1 ≤ hi := by
  intro x m
  simp only [tilePieces, List.mem_flatMap, cutBlocks, List.mem_map] at m
  obtain ⟨y, my, b, mb, rfl⟩ := m
  have hy := mem_joinRuns l h y my
  have hs := mem_steps (by decide) mb
  simp only; omega
theorem mem_dealBytes : ∀ (ps : List (Nat × Nat)) (bs : List Byte) {x : Nat × List Byte}, x ∈ dealBytes ps bs →
    ∃ y ∈ ps, x.1 = y.1 ∧ x.2.length ≤ y.2
  | [], _, _, h => by simp [dealBytes] at h
  | (a, n) :: ps, bs, x, h => by
    rcases List.mem_cons.mp h with rfl | h
    · exact ⟨(a, n), by simp, rfl, by rw [List.length_take]; exact Nat.min_le_left _ _⟩
    · obtain ⟨y, m, e⟩ := mem_dealBytes ps _ h
      exact ⟨y, by simp [m], e⟩
theorem homeWriteH {s : State} (hc : s.clusters = []) (hr : s.reqs = []) {a : Nat} (ha : paClass a = 12) (w : Who) (who : Writer) (bs : List Byte) (bl : Bool) :
    homeWrite s w who a bs bl = .ok { s with mem := s.mem.write a bs } := by
  simp [homeWrite, homeKnown, ha, fireWatches, State.watchesAt, State.cluster, hc, hr, arrivedOver, lookD, look, Cluster.fresh]
/-- Pieces of blocks that differ are written one by one. -/
theorem gather_apart : ∀ l : List (Nat × List Byte), l.Pairwise (fun p q => oneBlock p.1 q.1 = false) → gatherBlocks l = l.map (fun p => [p])
  | [], _ => rfl
  | p :: l, h => by
    obtain ⟨h1, h2⟩ := List.pairwise_cons.mp h
    have e : ∀ g ∈ l.map (fun p => [p]), g.any (fun q => oneBlock p.1 q.1) = false := by
      intro g m
      obtain ⟨q, mq, rfl⟩ := List.mem_map.mp m
      simp [h1 q mq]
    simp only [gatherBlocks, gather_apart l h2, List.map_cons]
    rw [List.filter_eq_nil_iff.mpr (fun g m => by simp [e g m]), List.filter_eq_self.mpr (fun g m => by simp [e g m])]
    rfl
theorem writeGroupsH {s0 : State} (w : Who) (who : Writer) : ∀ (l : List (Nat × List Byte)) {s : State}, s.clusters = [] → s.reqs = [] →
    (∀ x ∈ l, paClass x.1 = 12) →
    ∃ m', writeGroups s0 w who (l.map (fun p => [p])) s = .ok { s with mem := m' } ∧ (s.mem.wf = true → m'.wf = true)
  | [], s, _, _, _ => ⟨s.mem, rfl, id⟩
  | (a, bs) :: l, s, hc, hr, hl => by
    have ha : paClass a = 12 := hl (a, bs) (by simp)
    have nl : isLocal a = false := by simp only [paClass] at ha; simp only [isLocal, decide_eq_false_iff_not]; omega
    obtain ⟨m', e, k⟩ := writeGroupsH (s0 := s0) w who l (s := { s with mem := s.mem.write a bs }) hc hr (fun x m => hl x (by simp [m]))
    refine ⟨m', ?_, fun h => k (Laws.wf_write _ _ h)⟩
    have g : writeGroup s w who [(a, bs)] = .ok { s with mem := s.mem.write a bs } := by
      simp [writeGroup, nl, ha, homeWriteH hc hr ha]
    simp only [List.map_cons, writeGroups, g, e]
theorem writePiecesH {s0 : State} (w : Who) (who : Writer) (l : List (Nat × List Byte)) {s : State} (hc : s.clusters = []) (hr : s.reqs = [])
    (hl : ∀ x ∈ l, paClass x.1 = 12) : ∃ m', writePieces s0 w who l s = .ok { s with mem := m' } ∧ (s.mem.wf = true → m'.wf = true) := by
  rw [writePieces, gather_apart l (List.Pairwise.imp_of_mem (R := fun _ _ => True) (fun a _ _ => by simp [oneBlock, hl _ a]) (List.pairwise_iff_forall_sublist.mpr (fun _ => trivial)))]
  exact writeGroupsH w who l hc hr hl
theorem firmWriteH {s : State} (h : s.ptes = ptesH) (hc : s.clusters = []) (hr : s.reqs = []) (q sl : Nat) {va : Nat} {bs : List Byte} (hv : va < 2 ^ 25)
    (hn : va + bs.length ≤ 2 ^ 25) : ∃ m', firmWrite s q sl va bs = .ok { s with mem := m' } ∧ (s.mem.wf = true → m'.wf = true) := by
  obtain ⟨ps, hp, hx, -⟩ := vaPiecesH h false true (step := 64) (by decide) (by decide) hv hn
  have c : ∀ x ∈ tilePieces (dealBytes ps bs), paClass x.1 = 12 := by
    intro x m
    have := mem_tilePieces (lo := 12 * 2 ^ 48) (hi := 12 * 2 ^ 48 + 2 ^ 25 + 65536) (fun y my => by
      obtain ⟨z, mz, e1, e2⟩ := mem_dealBytes ps bs my
      have := hx z mz
      simp only [InArea] at this
      omega) x m
    exact class12 this.1 (by omega)
  obtain ⟨m', e, k⟩ := writePiecesH (s0 := s) whoFirm (.command q sl) _ hc hr c
  exact ⟨m', by simp only [firmWrite, hp, e], k⟩
/-- Writes of the area are performed. -/
theorem writeAllH (s0 : State) (q sl : Nat) : ∀ (L : List (Nat × List Byte)) {s : State}, s.ptes = ptesH → s.clusters = [] → s.reqs = [] →
    (∀ x ∈ L, x.1 < 2 ^ 25 ∧ x.1 + x.2.length ≤ 2 ^ 25) →
    ∃ m', writeAll s0 q sl L s = .ok { s with mem := m' } ∧ (s.mem.wf = true → m'.wf = true)
  | [], s, _, _, _, _ => ⟨s.mem, rfl, id⟩
  | x :: L, s, h, hc, hr, hL => by
    obtain ⟨m, e, k⟩ := firmWriteH h hc hr q sl (hL x (by simp)).1 (hL x (by simp)).2
    obtain ⟨m', e', k'⟩ := writeAllH s0 q sl L (s := { s with mem := m }) h hc hr (fun y my => hL y (by simp [my]))
    exact ⟨m', by simp only [writeAll, e, e'], fun w => k' (k w)⟩

/-- Launch 1 on core 0, stopped for the PREEMPT in slot 1, its context at 65536; and the panel that keeps its context. -/
def ctxCmd : LaunchCmd := { launchCmd0 with resume := true, spillovf := 2 ^ 25, ctx := 65536 }
def hdr1 : CmdHdr := { hdr with slot := 1 }
def preRun : RunCmd := { run1 (.preempt hdr1 ⟨0, 0⟩) with hdr := hdr1 }
def preLaunch (p : Option (Nat × Nat)) : Launch := { launch0 with cmd := ctxCmd, image := imgOf 3 0, preempt := p }
def preS (k : Core) (L : Launch) : State :=
  { panel7 [] [run1 (.launch hdr ctxCmd), preRun] with ptes := ptesH, cores := [(0, { k with launch := some 1 })], launches := [(1, L)] }
def savedCore : Core := { idle with launch := some 1, mode := .stop true }
def savedCtx : SavedCtx := { num := 1, launch := preLaunch none, vcc := 10, cores := [(0, savedCore)], bad := [] }
def resumeS : State :=
  { panel7 (Memory.write [] (12 * 2 ^ 48) (objBytes 3 0)) [run1 (.launchResume hdr ctxCmd)] with ptes := ptesH, contexts := [(65536, savedCtx)], bad := [badHdr] }
theorem readAreaH {s : State} (h : s.ptes = ptesH) (hr : s.reqs = []) (hb : s.bad = [badHdr]) (ctx : Nat) (x : SavedCtx)
    (hL : ∀ y ∈ ctxReads ctx x ++ (regReads ctx x ++ vecReads ctx x), 131072 ≤ y.2.1 ∧ y.2.1 < 2 ^ 25 ∧ y.2.1 + y.2.2 ≤ 2 ^ 25) :
    ∃ a, readArea s ctx x = .ok a ∧ Bounded a.mems (ctxReads ctx x) := by
  obtain ⟨m, em, lm⟩ := readAllH h hr hb (ctxReads ctx x) (fun y m => hL y (by simp [m]))
  obtain ⟨r, er, -⟩ := readAllH h hr hb (regReads ctx x) (fun y m => hL y (by simp [m]))
  obtain ⟨v, ev, -⟩ := readAllH h hr hb (vecReads ctx x) (fun y m => hL y (by simp [m]))
  exact ⟨⟨m, r, v⟩, by simp only [readArea, em, er, ev], lm⟩
/-- The reads of core 0's memories and of CLM 0, from an area at 65536. -/
def reads0 : List (Nat × Nat × Nat) :=
  [(2 ^ 60, 192512, 4096), (2 ^ 60 + 3 * 2 ^ 20, 393216, 262144), (2 ^ 60 + 2 ^ 20, 655360, 524288),
   (2 ^ 60 + 2 * 2 ^ 20, 1179648, 1048576), (2 ^ 51, 2228224, 4194304)]
theorem reads0_apart : ∀ m : List (Nat × List Byte), Bounded m reads0 → m.Pairwise (fun p q => p.1 + p.2.length ≤ q.1 ∨ q.1 + q.2.length ≤ p.1)
  | [b0, b1, b2, b3, b4], h => by
    simp only [reads0, Bounded, and_true] at h
    simp only [List.pairwise_cons, List.mem_cons, List.not_mem_nil, or_false, forall_eq_or_imp, forall_eq, List.Pairwise.nil, and_true,
      false_imp_iff, implies_true]
    omega
  | [], h | [_], h | [_, _], h | [_, _, _], h | [_, _, _, _], h | _ :: _ :: _ :: _ :: _ :: _ :: _, h => by simp [Bounded, reads0] at h
theorem reads0_eq : ctxReads 65536 savedCtx = reads0 := by decide
/-- The memories that are read stand apart. -/
theorem test_meets_Resume_read : ∃ a, readArea resumeS ctxCmd.ctx savedCtx = .ok a ∧
    a.mems.Pairwise (fun p q => p.1 + p.2.length ≤ q.1 ∨ q.1 + q.2.length ≤ p.1) := by
  obtain ⟨a, e, hb⟩ := readAreaH (s := resumeS) rfl rfl rfl 65536 savedCtx (by decide)
  exact ⟨a, e, reads0_apart a.mems (reads0_eq ▸ hb)⟩
def resumeOk (r : DispRes) : Bool :=
  match r with
  | .ok d => d.grid == [0] && d.img.id == 7
  | _ => false
theorem resume_of {r : DispRes} (h : resumeOk r = true) : ∃ d, r = .ok d ∧ d.grid = [0] ∧ d.img.id = 7 := by
  cases r with
  | ok d => simp [resumeOk] at h; exact ⟨d, rfl, h.1, h.2⟩
  | wait _ => cases h
  | bad _ _ => cases h
theorem test_meets_Resume_check : ∃ d, checkLaunch resumeS ctxCmd = .ok d ∧ d.grid = [0] ∧ d.img.id = 7 := resume_of (by decide +kernel)
theorem test_meets_Resume : Started resumeS hdr (run1 (.launchResume hdr ctxCmd)) ∧ resumeS.fw.patchHeld = none ∧
    hashWaits resumeS ctxCmd.ctx = false ∧
    look resumeS.contexts ctxCmd.ctx = some savedCtx ∧ look resumeS.contexts 0 = none ∧ gridBusy resumeS [0] = false ∧
    savedCtx.launch.image.id = 7 ∧ savedCtx.launch.detMode = ctxCmd.det ∧ (savedCtx.cores.map (·.1)).Nodup ∧ resumeS.memOk := by decide
/-- A grid whose context was saved on other cores is refused. -/
theorem test_meets_Resume_bad : checkLaunch { resumeS with contexts := [] } ctxCmd = .bad 2 0 := by rfl
theorem test_meets_Preempt : let s := preS core0 (preLaunch none)
    Started s hdr1 preRun ∧ preRun.begun = false ∧ s.launches.find? (fun x => x.2.hdr.q == 0 && x.2.hdr.slot == 0) = some (1, preLaunch none) ∧
    s.launches.find? (fun x => x.2.hdr.q == 3 && x.2.hdr.slot == 0) = none ∧ (preLaunch none).preempt = none ∧ (preLaunch none).cmd.ctx ≠ 0 ∧
    (preLaunch none).pairsLeft = [] ∧ look s.launches 1 = some (preLaunch none) ∧ launch0.cmd.ctx = 0 := by decide
theorem test_meets_Preempt_area : ∃ ps, vaPieces (preS core0 (preLaunch none)) true true 65536 65536
    (areaSize (preLaunch none).cores.length (clustersOf (preLaunch none).cores).length) = .ok ps :=
  let ⟨ps, h, _, _⟩ := vaPiecesH (s := preS core0 (preLaunch none)) rfl true true (step := 65536) (by decide) (by decide) (by decide) (by decide)
  ⟨ps, h⟩
def stopS : State := preS { idle with mode := .stop true } (preLaunch (some (0, 1)))
theorem fillImage_length (segs : List (Nat × List Byte)) (z : List (Nat × Nat)) (n : Nat) (s : State) : (fillImage segs z n s).1.length = n := by
  simp [fillImage, freeBytes]
theorem test_meets_ContextSave : look stopS.launches 1 = some (preLaunch (some (0, 1))) ∧ saveReady stopS (preLaunch (some (0, 1))) 0 = true ∧ stopS.memOk ∧
    spireCores (preLaunch (some (0, 1))) 0 = [0] := by decide
theorem coreImages_keeps (ctx : Nat) : ∀ (l : List Nat) (s : State), (coreImages ctx l s).2.ptes = s.ptes ∧
    (coreImages ctx l s).2.clusters = s.clusters ∧ (coreImages ctx l s).2.mem = s.mem ∧ (coreImages ctx l s).2.reqs = s.reqs ∧
    (coreImages ctx l s).2.launches = s.launches
  | [], _ => ⟨rfl, rfl, rfl, rfl, rfl⟩
  | c :: l, s => by
    have h := coreImages_keeps ctx l (coreImage s c (coreVa ctx (s.core c).logIdx)).2
    exact h
theorem headerImage_keeps (L : Launch) (v : Nat) (s : State) : (headerImage L v s).2.ptes = s.ptes ∧ (headerImage L v s).2.clusters = s.clusters ∧
    (headerImage L v s).2.mem = s.mem ∧ (headerImage L v s).2.cores = s.cores ∧ (headerImage L v s).2.reqs = s.reqs := ⟨rfl, rfl, rfl, rfl, rfl⟩
theorem coreImages_sizes (ctx : Nat) (s : State) (h : (s.core 0).logIdx = 0) : ∀ x ∈ (coreImages ctx [0] s).1,
    ctx ≤ x.1 ∧ x.1 + x.2.length ≤ ctx + 2 ^ 16 + 2 ^ 21 := by
  intro x m
  simp only [coreImages, coreImage, List.append_nil, List.mem_cons, List.not_mem_nil, or_false, h] at m
  rcases m with rfl | rfl | rfl | rfl | rfl | rfl <;> simp only [fillImage_length, read_length, coreVa, spSize] <;> omega
theorem saveWritesH (s : State) (L : Launch) (v : Nat) (h1 : s.ptes = ptesH) (h2 : s.clusters = []) (hr : s.reqs = []) (h3 : (s.core 0).logIdx = 0) (h4 : s.memOk)
    (hcl : clmImages 65536 L = [(0, clmVa 65536 1 0)]) : let hd := headerImage L v s; let im := coreImages 65536 [0] hd.2
    let clms := ((clmImages 65536 L).filter (fun x => x.1 / 8 == 0)).map (fun x => (x.2, s.mem.read (clmBase x.1) (2 ^ 22)))
    ∃ s', writeAll s 0 0 ((65536, hd.1) :: im.1 ++ clms) im.2 = .ok s' ∧ s'.memOk ∧ s'.launches = s.launches := by
  intro hd im clms
  have hk := headerImage_keeps L v s
  have ik := coreImages_keeps 65536 [0] hd.2
  obtain ⟨m', e, k⟩ := writeAllH s 0 0 ((65536, hd.1) :: im.1 ++ clms) (s := im.2) (by rw [ik.1, hk.1, h1]) (by rw [ik.2.1, hk.2.1, h2]) (by rw [ik.2.2.2.1, hk.2.2.2.2, hr]) (by
    intro x m
    rw [List.cons_append, List.mem_cons, List.mem_append] at m
    rcases m with rfl | m | m
    · simp only [hd, headerImage, fillImage_length]; omega
    · have := coreImages_sizes 65536 hd.2 (by exact h3) x m
      omega
    · simp only [clms, hcl, List.filter_cons, List.filter_nil, Nat.zero_div, BEq.rfl, if_true, List.map_cons, List.map_nil,
        List.mem_singleton] at m
      rw [m]
      simp only [read_length, clmVa]; omega)
  exact ⟨_, e, k (by rw [ik.2.2.1, hk.2.2.1]; exact h4), ik.2.2.2.2⟩
theorem test_meets_ContextSave_writes (v : Nat) : let L := preLaunch (some (0, 1)); let hd := headerImage L v stopS; let im := coreImages 65536 [0] hd.2
    let clms := ((clmImages 65536 L).filter (fun x => x.1 / 8 == 0)).map (fun x => (x.2, stopS.mem.read (clmBase x.1) (2 ^ 22)))
    ∃ s', writeAll stopS 0 0 ((65536, hd.1) :: im.1 ++ clms) im.2 = .ok s' ∧ s'.memOk ∧ s'.launches = stopS.launches :=
  saveWritesH stopS (preLaunch (some (0, 1))) v rfl rfl rfl rfl (by decide) rfl

/-! MIGRATE moves a page of zeros to dome 1, wherever in it the firmware chooses. -/

theorem mem_put {α : Type} : ∀ (l : List (Nat × α)) (k : Nat) (v : α) {x : Nat × α}, x ∈ put l k v → x ∈ l ∨ x.2 = v
  | [], k, v, x, h => by simp only [put, List.mem_singleton] at h; exact .inr (by rw [h])
  | (j, w) :: l, k, v, x, h => by
    simp only [put] at h
    split at h
    · rcases List.mem_cons.mp h with rfl | h
      · exact .inr rfl
      · exact .inl (by simp [h])
    · rcases List.mem_cons.mp h with rfl | h
      · exact .inl (by simp)
      · rcases mem_put l k v h with h | h
        · exact .inl (by simp [h])
        · exact .inr h
theorem look_mem {α : Type} {l : List (Nat × α)} {k : Nat} {v : α} (h : look l k = some v) : ∃ x ∈ l, x.2 = v := by
  simp only [look, Option.map_eq_some_iff] at h
  obtain ⟨x, hx, e⟩ := h
  exact ⟨x, List.mem_of_find?_eq_some hx, e⟩
theorem look_put {α : Type} : ∀ (l : List (Nat × α)) (k : Nat) (v : α), look (put l k v) k = some v
  | [], k, v => by simp [put, look]
  | (j, w) :: l, k, v => by
    simp only [put]
    split
    · simp [look]
    · rename_i h
      have ih := look_put l k v
      simp only [look] at ih ⊢
      rw [List.find?_cons_of_neg (by simpa using h)]
      exact ih

/-- A block that nothing was given away of and that has no unit beyond its home. -/
def Plain (r : BlockRec) : Prop := r.donated = false ∧ r.ballooned = false ∧ r.ovf = []
/-- A dome whose blocks are plain, with nothing held or watched, blocked in the present cycle at most. -/
structure PlainDome (k : Dome) (now cap : Nat) : Prop where
  lcap : k.lcap = cap
  held : k.held = []
  want : k.want = []
  watches : k.watches = []
  blocks : ∀ x ∈ k.blocks, Plain x.2
  blocked : ∀ x ∈ k.blocked, x.2 = now
theorem PlainDome.block {k : Dome} {now cap : Nat} (h : PlainDome k now cap) (b : Nat) : Plain (k.block b) := by
  simp only [Dome.block, lookD]
  cases e : look k.blocks b with
  | none => exact ⟨rfl, rfl, rfl⟩
  | some r => obtain ⟨x, m, rfl⟩ := look_mem e; exact h.blocks x m
theorem ovfNeed_zero : ovfNeed 0 = 0 := rfl
theorem plain_recode {k : Dome} {now cap : Nat} (h : PlainDome k now cap) (b : Nat) : PlainDome (recodeBlock k b 0) now cap := by
  have p := h.block b
  simp only [recodeBlock, p.2.2, ovfNeed_zero, List.length_nil, Nat.lt_irrefl, if_false]
  exact ⟨h.lcap, h.held, h.want, h.watches, fun x m => by
    rcases mem_put _ _ _ m with m | e
    · exact h.blocks x m
    · rw [e]; exact ⟨p.1, p.2.1, rfl⟩, h.blocked⟩
/-- Empty memory, dome 1 plain. -/
structure PlainPanel (s : State) (cap : Nat) : Prop where
  mem : s.mem = []
  poison : s.poison = []
  reqs : s.reqs = []
  dome : PlainDome (s.dome 1) s.now cap
theorem dome_setDome (s : State) (d : Nat) (k : Dome) : (s.setDome d k).dome d = k := by
  simp only [State.dome, State.setDome, lookD, look_put, Option.getD_some]
theorem plain_mod {s : State} {cap : Nat} (h : PlainPanel s cap) {f : Dome → Dome} (hf : PlainDome (f (s.dome 1)) s.now cap) :
    PlainPanel (s.modDome 1 f) cap := ⟨h.mem, h.poison, h.reqs, by
  have : (s.modDome 1 f).dome 1 = f (s.dome 1) := dome_setDome s 1 _
  rw [this]; exact hf⟩
theorem write_zero : ∀ (bs : List Byte) (a : Nat), (∀ b ∈ bs, b = 0) → Memory.write [] a bs = []
  | [], _, _ => rfl
  | b :: bs, a, h => by
    have e : b = 0 := h b (by simp)
    subst e
    exact write_zero bs (a + 1) (fun x m => h x (by simp [m]))
theorem words_zero (pa : Nat) : sectorsOf (blockWords [] pa) = 0 := by
  have e : blockWords [] pa = List.replicate 64 0 := by
    have n : ∀ a, Memory.num [] a 4 = 0 := fun _ => rfl
    simp only [blockWords, n, List.map_const', List.length_range]
  rw [e]; decide
theorem units_zero {k : Dome} : ∀ l : List Nat, unitsNeeded k [] l = 0
  | [] => rfl
  | b :: l => by simp only [unitsNeeded, words_zero, ovfNeed_zero, units_zero l, Nat.zero_sub]
theorem plain_recodes {now cap : Nat} : ∀ (l : List Nat) {k : Dome}, PlainDome k now cap → PlainDome (recodeAll [] l k) now cap
  | [], _, h => h
  | b :: l, k, h => by rw [recodeAll, words_zero]; exact plain_recodes l (plain_recode h _)
theorem plain_activate {s : State} {cap : Nat} (h : PlainPanel s cap) {pa : Nat} (hp : domeOf pa = 1) (kd ix : Nat) : PlainPanel (activate s pa kd ix) cap := by
  simp only [activate, hp]
  have h1 := fun n => plain_mod (s := s) h (f := fun k => { k with acts := put k.acts (Config.bankOf 1 (blockOf pa) % 1024) n })
    ⟨h.dome.lcap, h.dome.held, h.dome.want, h.dome.watches, h.dome.blocks, h.dome.blocked⟩
  split
  · have h2 := plain_mod (h1 (lookD (s.dome 1).acts (Config.bankOf 1 (blockOf pa) % 1024) 0 + 1))
      (f := fun k => { k with alerts := k.alerts + 1, blocked := (Config.bankOf 1 (blockOf pa) % 1024, s.now) :: k.blocked })
      ⟨(h1 _).dome.lcap, (h1 _).dome.held, (h1 _).dome.want, (h1 _).dome.watches, (h1 _).dome.blocks, fun x m => by
        rcases List.mem_cons.mp m with rfl | m
        · rfl
        · exact (h1 _).dome.blocked x m⟩
    exact ⟨h2.mem, h2.poison, h2.reqs, h2.dome⟩
  · exact h1 _
theorem plain_touched {s : State} {cap : Nat} (h : PlainPanel s cap) {pa n : Nat} (hp : ∀ b ∈ stepsOf pa n 256, domeOf b = 1) :
    PlainPanel (touched s pa n whoFirm) cap := by
  have c : ∀ {u : State}, PlainPanel u cap → PlainPanel (sampleAccess u pa whoFirm.came) cap := by
    intro u hu
    unfold sampleAccess
    split
    · exact ⟨hu.mem, hu.poison, hu.reqs, hu.dome⟩
    · exact hu
  refine c ?_
  simp only [activated, whoFirm]
  generalize stepsOf pa n 256 = l at hp
  induction l generalizing s with
  | nil => exact h
  | cons b l ih => exact ih (plain_activate h (hp b (by simp)) _ _) (fun x m => hp x (by simp [m]))
theorem plain_pool {s : State} {cap : Nat} (h : PlainPanel s cap) : PlainPanel (poolCheck s 1) cap := by
  have note : ∀ n, PlainPanel (postDomeNote s 1 n) cap := by
    intro n
    have p : PlainPanel (postNote s n) cap := ⟨h.mem, h.poison, h.reqs, h.dome⟩
    unfold postDomeNote
    simp only
    split
    · exact p
    · exact plain_mod p ⟨p.dome.lcap, p.dome.held, p.dome.want, p.dome.watches, p.dome.blocks, p.dome.blocked⟩
  unfold poolCheck
  simp only
  split
  · exact plain_mod (note _) ⟨(note _).dome.lcap, (note _).dome.held, (note _).dome.want, (note _).dome.watches, (note _).dome.blocks, (note _).dome.blocked⟩
  · split
    · exact plain_mod h ⟨h.dome.lcap, h.dome.held, h.dome.want, h.dome.watches, h.dome.blocks, h.dome.blocked⟩
    · exact h
/-- A write of zeros in dome 1 is performed and leaves it plain. -/
theorem plain_write {s : State} {cap : Nat} (h : PlainPanel s cap) (who : Writer) {pa : Nat} {bs : List Byte} (bl : Bool) (hz : ∀ b ∈ bs, b = 0)
    (h1 : 2 ^ 37 ≤ pa) (h2 : pa + bs.length ≤ 2 ^ 37 + cap * 2 ^ 25) (h3 : pa < 2 ^ 37 + cap * 2 ^ 25) (hc : cap ≤ 4096) :
    ∃ s', domeWrite s whoFirm who pa bs.length [(pa, bs)] bl = .ok s' ∧ homeKnown s pa bs.length = true ∧ PlainPanel s' cap := by
  have c0 : paClass pa = 0 := by simp only [paClass]; omega
  have d1 : domeOf pa = 1 := by simp only [domeOf]; omega
  have known : homeKnown s pa bs.length = true := by
    simp only [homeKnown, c0, State.capOf, d1, h.dome.lcap, Bool.and_eq_true, decide_eq_true_eq]; omega
  have steps : ∀ b ∈ stepsOf pa bs.length 256, domeOf b = 1 ∧ paClass b = 0 := by
    intro b m
    have := mem_steps (by decide) m
    simp only [stepsOf, List.mem_map, List.mem_range] at m
    obtain ⟨i, -, rfl⟩ := m
    simp only [domeOf, paClass]; omega
  have nd : (stepsOf pa bs.length 256).any s.donatedAt = false := by
    rw [List.any_eq_false]; intro b m
    simp only [State.donatedAt, (steps b m).1, (steps b m).2, BEq.rfl, Bool.true_and]
    cases e : look (s.dome 1).blocks (blockOf b) with
    | none => simp
    | some r => obtain ⟨x, mx, rfl⟩ := look_mem e; simp [(h.dome.blocks x mx).1, (h.dome.blocks x mx).2.1]
  have nb : (stepsOf pa bs.length 256).any (bankBlocked s) = false := by
    rw [List.any_eq_false]; intro b m
    simp only [bankBlocked, (steps b m).1, Bool.not_eq_true, List.any_eq_false, Bool.and_eq_true, decide_eq_true_eq, not_and]
    intro x mx _
    have := h.dome.blocked x mx
    omega
  have nw : (s.dome 1).waiting = [] := by simp [Dome.waiting, h.dome.held, h.dome.want]
  have nh : heldOver s whoFirm (some who) pa bs.length = false := by simp [heldOver, nw, d1]
  have nk : keepsArrival (s.dome 1) who whoFirm = whoFirm := by simp [keepsArrival, nw]
  have np : (stepsOf pa bs.length 256).any s.poisoned = false := by simp [State.poisoned, h.poison]
  have m0 : s.mem.write pa bs = [] := by rw [h.mem]; exact write_zero bs pa hz
  have t := plain_touched h (pa := pa) (n := bs.length) (fun b m => (steps b m).1)
  have r : PlainPanel { (touched s pa bs.length whoFirm).modDome 1 (fun k => recodeAll [] (stepsOf pa bs.length 256) { k with
      held := k.held.filter (fun h => h.who != who), want := k.want.filter (fun h => h.who != who) }) with mem := [], poison := [] } cap := by
    have := plain_mod t (f := fun k => recodeAll [] (stepsOf pa bs.length 256) { k with
      held := k.held.filter (fun h => h.who != who), want := k.want.filter (fun h => h.who != who) })
      (plain_recodes _ ⟨t.dome.lcap, by simp [t.dome.held], by simp [t.dome.want], t.dome.watches, t.dome.blocks, t.dome.blocked⟩)
    exact ⟨rfl, rfl, this.reqs, this.dome⟩
  have w : ∀ (u : State) (a : Option Access), PlainPanel u cap → fireWatches u pa bs.length a = u := by
    intro u a hu
    simp [fireWatches, State.watchesAt, c0, d1, hu.dome.watches]
  have na : arrivedOver s whoFirm pa bs.length = false := by simp [arrivedOver, h.reqs]
  have nt : heldTooLong s (s.dome 1) who = false := by simp [heldTooLong, h.dome.held]
  refine ⟨poolCheck _ 1, ?_, known, plain_pool r⟩
  have pe : (touched s pa bs.length whoFirm).poison.filter (fun b => !(stepsOf pa bs.length 256).contains b) = [] := by rw [t.poison]; rfl
  simp only [domeWrite, nd, nb, nk, nh, na, nt, np, List.foldl_cons, List.foldl_nil, m0, d1, units_zero, pe, Bool.false_and, Bool.or_self,
    Nat.lt_irrefl, decide_false, if_false, Bool.false_eq_true]
  rw [w _ _ r]
theorem plain_groups {cap : Nat} (s0 : State) (who : Writer) (hc : cap ≤ 4096) : ∀ (l : List (Nat × List Byte)) {s : State}, PlainPanel s cap →
    (∀ x ∈ l, (∀ b ∈ x.2, b = 0) ∧ 2 ^ 37 ≤ x.1 ∧ x.1 + x.2.length ≤ 2 ^ 37 + cap * 2 ^ 25 ∧ x.1 < 2 ^ 37 + cap * 2 ^ 25) →
    ∃ s', writeGroups s0 whoFirm who (l.map (fun p => [p])) s = .ok s'
  | [], s, _, _ => ⟨s, rfl⟩
  | (a, bs) :: l, s, h, hl => by
    obtain ⟨z, h1, h2, h3⟩ := hl (a, bs) (by simp)
    obtain ⟨s', e, hk, p⟩ := plain_write h who (whoFirm.kind == 2 && bs.length == 256) z h1 h2 h3 hc
    obtain ⟨u, hu⟩ := plain_groups s0 who hc l p (fun x m => hl x (by simp [m]))
    have nl : isLocal a = false := by simp only [isLocal, decide_eq_false_iff_not]; simp only at h2 h3; omega
    have c0 : paClass a = 0 := by simp only at h1 h2 h3; simp only [paClass]; omega
    have g : writeGroup s whoFirm who [(a, bs)] = .ok s' := by
      simp only [writeGroup, nl, c0, hk, List.any_cons, List.any_nil, Bool.or_false, Bool.false_eq_true, if_false, BEq.rfl, if_true]
      exact e
    exact ⟨u, by simp only [List.map_cons, writeGroups, g, hu]⟩
theorem read_zero : ∀ n a : Nat, ∀ b ∈ Memory.read [] a n, b = 0
  | 0, _, _, h => by simp [Memory.read] at h
  | n + 1, a, b, h => by
    rcases List.mem_cons.mp h with rfl | h
    · rfl
    · exact read_zero n (a + 1) b h
/-- Whatever page of dome 1 the firmware chooses, it is free, within the capacity, and takes the bytes of page 2^20. -/
theorem test_meets_Migrate : let s := pagesS page0 true; let u := { s with free := s.free + 1 }; let toPa := newPage u 1 false (Config.freeBits s.free)
    pageFree u toPa false = true ∧ toPa % 2 ^ 37 + 65536 ≤ u.capOf 1 ∧
    ∃ s', writePieces u whoFirm (.command 0 0) (cutBlocks toPa (s.mem.read (2 ^ 20) 65536)) u = .ok s' := by
  intro s u toPa
  have cap : u.capOf 1 = 1907 * 2 ^ 25 := rfl
  have hto : toPa = 2 ^ 37 + (Config.freeBits s.free).toNat % 976384 * 65536 := by
    simp only [toPa, newPage, cap, pageSize]
    rfl
  have hi : (Config.freeBits s.free).toNat % 976384 < 976384 := Nat.mod_lt _ (by decide)
  generalize (Config.freeBits s.free).toNat % 976384 = i at hto hi
  have blk : ∀ b ∈ stepsOf toPa 65536 256, domeOf b = 1 := by
    intro b m
    simp only [stepsOf, List.mem_map, List.mem_range] at m
    obtain ⟨j, hj, rfl⟩ := m
    simp only [domeOf, hto] at hj ⊢; omega
  refine ⟨?_, by omega, ?_⟩
  · have e : (stepsOf toPa 65536 256).any (fun b => u.donatedAt b || u.poisoned b) = false := by
      rw [List.any_eq_false]; intro b m
      have hp : u.poison = [] := rfl
      simp only [State.donatedAt, State.poisoned, hp, blk b m]
      have : look (u.dome 1).blocks (blockOf b) = none := rfl
      rw [this]; simp
    have f : u.ptes = ptes0 := rfl
    have l1 : pteLeaf 0x4001 = false := by decide
    have l2 : pteLeaf 0x2001 = false := by decide
    have l3 : pteLeaf 0x3001 = false := by decide
    have l4 : pteAddr (2 ^ 20 + 0xF) = 2 ^ 20 := by decide
    have far : ¬ toPa < 2 ^ 20 + 2 ^ 25 ∧ ¬ toPa < 2 ^ 20 + 65536 := by omega
    have h0 : (2 ^ 20 % 2 ^ 25 == 0) = false := by decide
    have p : u.ptes.any (fun e => pteValid e.2 && pteLeaf e.2 && decide (pteAddr e.2 < toPa + 65536) &&
        decide (toPa < pteAddr e.2 + (if pteAddr e.2 % 2 ^ 25 == 0 then 2 ^ 25 else 65536))) = false := by
      simp only [f, ptes0, List.any_cons, List.any_nil, l1, l2, l3, l4, h0, far.2, Bool.false_eq_true, if_false, decide_false, Bool.and_false,
        Bool.false_and, Bool.or_self]
    have sz : pageSize false = 65536 := rfl
    rw [pageFree, sz, e]
    simp only [p]
    rfl
  · have z := read_zero 65536 (2 ^ 20)
    have len := read_length [] 65536 (2 ^ 20)
    have sm : s.mem = [] := rfl
    rw [sm]
    generalize Memory.read [] (2 ^ 20) 65536 = bs at z len
    have apart : (cutBlocks toPa bs).Pairwise (fun p q => oneBlock p.1 q.1 = false) := by
      simp only [cutBlocks, stepsOf, List.pairwise_map]
      refine List.Pairwise.imp ?_ List.pairwise_lt_range
      intro i j hij
      have : ¬ (max toPa (toPa / 256 * 256 + i * 256) / 256 = max toPa (toPa / 256 * 256 + j * 256) / 256) := by omega
      simp [oneBlock, this]
    rw [writePieces, gather_apart _ apart]
    refine plain_groups u _ (cap := 1907) (by decide) _ ⟨rfl, rfl, rfl, ⟨rfl, rfl, rfl, rfl, ?_, ?_⟩⟩ ?_
    · have : (u.dome 1).blocks = [] := rfl
      simp [this]
    · have : (u.dome 1).blocked = [] := rfl
      simp [this]
    · intro x m
      simp only [cutBlocks, List.mem_map] at m
      obtain ⟨b, mb, rfl⟩ := m
      have hs := mem_steps (by decide) mb
      refine ⟨fun y my => z y (List.mem_of_mem_drop (List.mem_of_mem_take my)), ?_, ?_, ?_⟩
      · simp only; omega
      · simp only [List.length_take, List.length_drop]; omega
      · simp only; omega

/-! Grammar matrices. -/

/-- The table at virtual 1024 names one block of 640 bytes at 2048 of one row (R284); the block has a codebook of 1.0, one rule of two
terminals at depth 1, and a row of that rule (R286 to R289). -/
def gvTable : List Byte := toBytes 1 4 ++ toBytes 0 4 ++ toBytes 640 8 ++ toBytes 2048 8 ++ toBytes 640 4 ++ toBytes 0 4 ++ toBytes 1 4 ++ toBytes 0 4
def gvBlock : List Byte :=
  toBytes 0 4 ++ toBytes (1 + 65536) 4 ++ toBytes 0 4 ++ toBytes (1 + 65536) 4 ++ toBytes 64 4 ++ toBytes 576 4 ++ toBytes 3 4 ++
    toBytes 588 4 ++ toBytes 2 4 ++ toBytes 0 28 ++ toBytes 0x3C00 4 ++ toBytes 0 508 ++ toBytes (2 ^ 24 + 2) 4 ++ toBytes 0 8 ++
    toBytes 1 4 ++ toBytes (2 ^ 31) 4
def gvMem : Memory := Memory.write (Memory.write [] (2 ^ 20 + 1024) gvTable) (2 ^ 20 + 2048) gvBlock
/-- A TGV of that matrix: one row and column, one lane; its batch at virtual 512. -/
def gvD : V512 := formW 0 10 2 1 1 1 0
def gvA : V512 := formW 0 13 2 1 1 1 1024
def gvB : V512 := formW 512 10 2 1 1 1 0
def gvBand : Band := { row0 := 0, nrows := 1, blocks := [(2048, 640)] }
def gvTop (st : TopStage) : Top :=
  { Top.fresh 0x1B 0 (.core 0) 3 0 0 false 0 (dOf gvD) (dOf gvA) (dOf gvB) none with
    stage := st, nt := 1, bands := if st = .issued then [] else [gvBand], pages := if st = .issued then [] else [(0, 2 ^ 20)] }
def gvS (st : TopStage) (m : Memory) (p : List (Nat × W64)) (po : List Nat) : State := { panelS (gvTop st) p 1 dome0 with mem := m, poison := po }
/-- The kinds of what a table or a block gives: 0 a value that is v, 1 a cause of its layout, 2 poison, 3 a translation cause. -/
def parsed {α : Type} (r : Except GFail α) (v : α → Bool) : Nat :=
  match r with
  | .ok x => if v x then 0 else 4
  | .error (.grammar ..) => 1
  | .error (.poison _) => 2
  | .error (.xlat ..) => 3
theorem parsed_ok {α : Type} {r : Except GFail α} {v : α → Bool} (h : parsed r v = 0) : ∃ x, r = .ok x ∧ v x = true := by
  cases r with
  | ok x => exact ⟨x, rfl, by simpa [parsed] using h⟩
  | error f => cases f <;> cases h
theorem parsed_grammar {α : Type} {r : Except GFail α} {v : α → Bool} (h : parsed r v = 1) : ∃ cz va, r = .error (.grammar cz va) := by
  cases r with
  | ok x => simp only [parsed] at h; split at h <;> cases h
  | error f => cases f with
    | grammar cz va => exact ⟨cz, va, rfl⟩
    | poison _ => cases h
    | xlat _ _ => cases h
def gvFresh : Top := gvTop .issued
theorem test_meets_Twhere_table :
    parsed (parseTable (tableWord (gvS .issued gvMem ptes0 [])) (dOf gvA).grammar ((dOf gvA).e 1)) (· == [gvBand]) = 0 ∧
    parsed (parseTable (tableWord (gvS .issued [] ptes0 [])) (dOf gvA).grammar ((dOf gvA).e 1)) (· == [gvBand]) = 1 ∧
    (let s := formS gvD gvA gvB
     DescsAre s 0 { mt with aux := 0x1B } (twoSource 0x1B) (dOf gvD) (dOf gvA) (dOf gvB) ∧
     topCheck 0x1B 0 (some (dOf gvD)) (some (dOf gvA)) (some (dOf gvB)) = none) := ⟨by decide +kernel, by decide +kernel, by decide +kernel⟩
/-- The table reads, breaks its layout, is poisoned, or lies on a page that is not mapped. -/
theorem test_meets_Placement_table :
    (TopIs (gvS .issued gvMem ptes0 []) 5 gvFresh ∧ gvFresh.stage = .issued ∧ gvFresh.op = 0x1B ∧ issuerReady (gvS .issued gvMem ptes0 []) gvFresh = true ∧
      ∀ x ∈ tableSpans (gvS .issued gvMem ptes0 []) gvFresh, (gvS .issued gvMem ptes0 []).mustWait (whoPlace gvFresh) x.1 x.2 = false) ∧
    parsed (readTable (gvS .issued gvMem ptes0 []) gvFresh) (· == [gvBand]) = 0 ∧ parsed (readTable (gvS .issued [] ptes0 []) gvFresh) (fun _ => true) = 1 ∧
    parsed (readTable (gvS .issued gvMem ptes0 [2 ^ 20 + 1024]) gvFresh) (fun _ => true) = 2 ∧ parsed (readTable (gvS .issued gvMem [] []) gvFresh) (fun _ => true) = 3 :=
  ⟨by decide +kernel, by decide +kernel, by decide +kernel, by decide +kernel, by decide +kernel⟩
/-- Its pages come, and its operands translate. -/
theorem test_meets_Placement_fetched : ∀ bs ∈ [[], [gvBand]],
    (fetchFor gvFresh (runGranules ([(gvFresh.ds1.grammar, tableSize (gvS .issued gvMem ptes0 []) gvFresh.ds1, false)] ++
      (allOps 0x1B gvFresh.dd gvFresh.ds1 gvFresh.ds2).flatMap (fun x => operandRuns 0x1B bs x.1 x.2))) (gvS .issued gvMem ptes0 [])).1 = true := by
  decide +kernel
theorem test_meets_Placement_pages : ∃ pages, grabAll (gvS .issued gvMem ptes0 []) 0x1B 0 [gvBand] (allOps 0x1B gvFresh.dd gvFresh.ds1 gvFresh.ds2)
    (tablePages (gvS .issued gvMem ptes0 []) gvFresh.ds1) = .ok pages := ⟨_, rfl⟩
def gvQ (m : Memory) : State := gvS .queued m ptes0 []
theorem test_meets_GrammarBands_band : (gvTop .queued).bands[0]? = some gvBand ∧
    (∀ x ∈ bandSpans (gvTop .queued) gvBand, (gvQ gvMem).mustWait (whoClaim (.lantern 0) true) x.1 x.2 = false) ∧
    (∀ x ∈ readsPieces (gvTop .queued).pages (batchReads (gvTop .queued).ds2), (gvQ gvMem).badRead x.2.2.1 x.2.2.2 = false) ∧ 0 < (gvTop .queued).ds2.e 1 := by
  decide +kernel
theorem test_meets_GrammarBands : ∃ gs, readBlocks (claimWord (gvQ gvMem) (gvTop .queued).pages) ((gvTop .queued).ds1.e 0) gvBand gvBand.blocks = .ok gs ∧
    (gs.map (fun g => (g.rules, g.rows)) == [([[0, 0]], [[2 ^ 31]])]) = true := parsed_ok (by decide +kernel)
theorem test_meets_GrammarBands_bad : ∃ cz va, readBlocks (claimWord (gvQ []) (gvTop .queued).pages) ((gvTop .queued).ds1.e 0) gvBand gvBand.blocks =
    .error (.grammar cz va) := parsed_grammar (v := fun _ => true) (by decide +kernel)

/-! T-ops: the forms with their queue full, the input, tickets, elements, collectives. -/

theorem test_meets_TopForms_full : (reserve (topsS 0 32 none) (.core 0) ((topsS 0 32 none).xq (.core 0) 9) ((topsS 0 32 none).at + 1)).isSome := by decide
theorem test_meets_TopAccept_cycle : let t := topAt .waiting 0x10 1; let s := panelS t ptes0 1 { dome0 with input := [5] }
    t.arrived < { s with now := 1 }.now ∧ s.now ≤ t.arrived ∧ isCollective t.op = false := by decide
theorem test_meets_TileClaim_none : let t := topAt .queued 0x10 1
    isCollective t.op = false ∧ look t.claimed 0 = none ∧
    (let s := panelS t ptes0 1 { dome0 with tileQ := [5], held := [{ who := .access 70, addr := 2 ^ 20 + 256, size := 8, since := 0, need := 9 }] }
     (runAny s t 0 (.lantern 0)).isNone = true ∧ ticketFor t 0 1 = some 0) := by decide +kernel
theorem test_meets_TileComplete_got : okRun.got = true ∧ badRun.got = true := by decide
/-- Integers and floats as sources and destinations, each maximum's and minimum's selector, each function, and the scaled forms. -/
theorem test_meets_TileElements_forms :
    (∀ f ∈ [8, 9, 10], ((dOf (formW 0 f 1 4 0 0 0)).plainInt && (descAt 0).plainInt) = false ∧ (dOf (formW 0 f 1 4 0 0 0)).plainInt = false ∧
      (dOf (formW 0 f 1 4 0 0 0)).scaled = false ∧ 8 ≤ (dOf (formW 0 f 1 4 0 0 0)).fmt ∧ (dOf (formW 0 f 1 4 0 0 0)).fmt ≤ 10) ∧
    (∀ k ∈ [0, 1, 2], (BitVec.ofNat 8 (64 * k)).toNat / 64 = k) ∧ (∀ k ∈ [0, 1, 2, 3, 4, 5, 6], (BitVec.ofNat 8 (16 * k)).toNat / 16 = k) ∧
    (⟨3, 0, 0, 0⟩ : Ix).a < (descAt 0).e 0 ∧ ({ descAt 0 with fmt := 11, scaled := true } : Desc).scaled = true := by decide +kernel
def collIn : State := { panelS (coll .waiting 0x22 none false 0) ptes0 1 { dome0 with input := [5] } with now := 1 }
theorem test_meets_CollectiveAccept_input : let t := coll .waiting 0x22 none false 0
    TopIs collIn 5 t ∧ isCollective t.op = true ∧ (collIn.dome t.home).input.head? = some 5 ∧ (collIn.dome t.home).tileQ.length < 512 ∧ t.arrived < collIn.now := by
  decide
theorem test_meets_CollectiveAccept_reads : let t := { coll .queued 0x22 none false 0 with contrib := [] }
    TopIs (collS t) 5 t ∧ t.stage = .queued ∧ t.contrib = [] ∧ issuerReady (collS t) t = true := by decide
/-- TALLRED and TGATHER over two ranks; TBCAST at its root and away from it. -/
theorem test_meets_CollectiveStep_forms :
    (∀ op ∈ [0x20, 0x21], let t := coll .queued op none false 0
     TopIs (collS t) 5 t ∧ t.contrib ≠ [] ∧ (∀ c ∈ [List.replicate 16 (1 : Byte), List.replicate 16 2], c.length = t.contrib.length)) ∧
    (let t := { coll .queued 0x22 none false 0 with sends := true }
     TopIs (collS t) 5 t ∧ t.sends = true ∧ switchOf (collS t) t.port = some (2, 0) ∧ (0 : Nat) < 2) ∧
    { coll .queued 0x22 none false 0 with sends := false }.sends = false ∧ (coll .queued 0x20 none false 0).ds1.plainInt = true ∧
    (({ descAt 0 with fmt := 10 } : Desc).plainInt && (descAt 0).plainInt) = false := by decide
theorem test_meets_Digest_disagrees : let t := coll .queued 0x22 (some []) false 0
    TopIs (collS t) 5 t ∧ t.agree = false ∧ isCollective t.op = true ∧ t.contrib ≠ [] := by decide
/-- The symbol words that break each rule: layout, order at one entry, depth past 16, and a depth that is not one more. -/
def symV (sym e d : Nat) : V512 := BitVec.ofNat 512 (sym + e * 2 ^ 64 + d * 2 ^ 80)
theorem test_meets_Vrule_causes :
    (symV 0 2049 1).toNat / 2 ^ 64 % 2 ^ 16 > 2048 ∧
    ((symV (2 ^ 31 + 3) 3 1).toNat / 2 ^ 31 % 2 = 1 ∧ (symV (2 ^ 31 + 3) 3 1).toNat / 2 ^ 64 % 2 ^ 16 ≤ (symV (2 ^ 31 + 3) 3 1).toNat % 2 ^ 11) ∧
    ((symV 0 3 17).toNat / 2 ^ 80 % 2 ^ 8 > 16 ∧ (symV 0 3 16).toNat / 2 ^ 80 % 2 ^ 8 ≤ 16 ∧ 16 ≠ 1 + 0) ∧
    ((symV 0 3 1).toNat / 2 ^ 80 % 2 ^ 8 = 1 + 0 ∧ ¬ (symV 0 2048 1).toNat / 2 ^ 64 % 2 ^ 16 < 2048) := by decide
theorem test_meets_Vrule_traps : (∀ v ∈ [symV 0 2049 1, symV 0 3 16], ruleStep ((pairS 3).pair 0) true true 0 v = .error 0x17) ∧
    ruleStep ((pairS 3).pair 0) true true 0 (symV (2 ^ 31 + 3) 3 1) = .error 0x15 ∧ ruleStep ((pairS 3).pair 0) true true 0 (symV 0 3 17) = .error 0x16 :=
  ⟨fun v h => by
    rcases List.mem_cons.mp h with rfl | h
    · rfl
    · rw [List.mem_singleton.mp h]; rfl, rfl, rfl⟩

/-! Freezes that last, waits across an interrupt, stops that a recall comes before. -/

/-- Core 0 in a freeze for its late load, and in one for its power. -/
def frozenS (w : FreezeWhy) : State := { lateS with freezes := [{ frz0 with why := w }] }
theorem test_meets_Freezes_tick :
    (let f := { frz0 with why := .power }
     f ∈ (frozenS .power).freezes ∧ f.group = (frozenS .power).groupOf (.core 0) ∧ f.at_ ≤ (frozenS .power).vccOf 0 ∧ f.why = .power) ∧
    (∀ x ∈ (frozenS (.access 0 70)).freezes, x.group = frz0.group → x.why ≠ .power) := by decide
/-- A core that has trapped, whose report has left or has not, in each mode. -/
def trappedS (sent det : Bool) : State :=
  { on { core0 with ldq := [lateAcc], mode := .trap sent, detMode := det } with freezes := [frz0], now := 800005 }
theorem test_meets_FreezeTimeout_trapped : ∀ sent ∈ [true, false], ∀ det ∈ [true, false],
    (trappedS sent det).freezes.find? (fun f => f.group == .core 0 && freezeOld (trappedS sent det) f) = some frz0 ∧
    ((trappedS sent det).core 0).mode = .trap sent ∧ ((trappedS sent det).core 0).detMode = det := by decide +kernel
/-- R378, R353: a trapped core's late load freezes it. -/
theorem test_trapped_late : lateNow (on { core0 with ldq := [lateAcc], mode := .trap false }) (.core 0) = [(.access 0 70, 10)] := by decide
def waitIdle : Core := { idle with uistat := 9, uivec := 64, waits := [.waitv waitA] }
theorem test_meets_UserInterrupt_wait : intReady waitIdle = true ∧ ∀ w ∈ waitIdle.waits, waitEntry w = none := by decide
/-- R232: a core that stops in a WAITV notes the bundle after it. -/
theorem test_stop_epc : (match exec (.coreStop 0) (on { idle with stopReq := true, waits := [.waitv waitA] }) with
    | .next t => (t.core 0).epc | _ => 0) = 33 := by decide
/-- A mark that kept an arrival at bell 3, whose peal has gone on, and one whose peal has not. -/
def rollS (g : Nat) : State :=
  let L := { launch0 with bells := [(3, { Peal.start [0] with gen := g })] }
  { on { idle with mode := .roll [], launch := some 1
                   snap := some { takeSnap 30 idle with bells := [(3, { BellSt.start with arrived := true, count := 1 })] } } with
    launches := [(1, L)] }
theorem test_meets_Rollback_bells :
    (let x := takeSnap 30 idle; let old := { BellSt.start with arrived := true, count := 1 }
     old.arrived = true ∧ old.gen < (pealOf (sendHeld 0 (rollS 1)) 0 3).gen ∧ (pealOf (sendHeld 0 (rollS 0)) 0 3).gen ≤ old.gen ∧ x.pendRegs = []) ∧
    (rollIdle (rollS 1) 0 = true ∧ rollIdle (rollS 0) 0 = true) := by decide
/-- A recall that has caught a gated store of a core that is asked to stop. -/
def recalledF : SlotFault := { slot := .ca, cause := 0x10, frec := FRec.none }
def recalledS (det : Bool) : State :=
  on { idle with stopReq := true, detMode := det, ackFaults := [recalledF], snap := some (takeSnap 30 idle) }
theorem test_meets_Stops_recall : ∀ det ∈ [true, false],
    stopReady ((recalledS det).core 0) = true ∧ (recalledS det).frozen (.core 0) = false ∧ launchEnding (recalledS det) ((recalledS det).core 0) = false ∧
    recallFault ((recalledS det).core 0) = some recalledF ∧ ((recalledS det).core 0).snap.isSome = true ∧
    inHandler ((recalledS det).core 0) = false ∧ recalledF.frec.kind ≠ 3 ∧ ((recalledS det).core 0).detMode = det := by decide
theorem test_meets_Stops_plain : recallFault ((on { idle with stopReq := true }).core 0) = none := by decide
/-- A launch that is ending, with a core in a wait. -/
theorem test_meets_Stops_waits : let s := under1 { idle with stopReq := true, waits := [.waitv waitA] } endedLaunch
    launchEnding s (s.core 0) = true ∧ stopOpen (s.core 0) = true ∧ (s.core 0).waits ≠ [] ∧ (s.core 0).mode = .run := by decide
/-- A faulted pair in a launch that is ending already; the first faulting slot of its mask. -/
theorem test_meets_LanternEnds_later : let L := { lantLaunch with ending := some { status := 6, detail := 0 } }
    let s := segS { segPair 1 with faulted := some ⟨true, 1, 24, 5⟩ } L
    look s.launches 1 = some L ∧ L.ending = some { status := 6, detail := 0 } ∧ (allPos.find? (fun q => (24 : BitVec 6).getLsbD (posBit q))).isSome := by decide

/-! Commands: records that wait, refused areas, the places of a context, pages that are held. -/

/-- A request of core 0 has arrived at the block where a record goes. -/
def hostBusy : State := { panel7 [] [doneCmd true 4] with now := 5, reqs := [{ acc0 with pa := 12 * 2 ^ 48, came := some 3 }] }
theorem homeWait_of {r : HomeRes} (h : (match r with | .wait _ => true | _ => false) = true) : ∃ s', r = .wait s' := by
  cases r with
  | wait s => exact ⟨s, rfl⟩
  | ok _ => cases h
  | err _ => cases h
theorem test_meets_Records_record (bs : List Byte) : ∃ s', homeWrite (panel7 [] [doneCmd true 4]) whoFirm (.command 0 0) (12 * 2 ^ 48) bs false = .ok s' := ⟨_, rfl⟩
theorem test_meets_Records_wait : ∃ s', homeWrite hostBusy whoFirm (.command 0 0) (12 * 2 ^ 48) (toBytes 0 32) false = .wait s' := homeWait_of (by decide)
/-- A launch that ended in its stop request before its release, its waits saved (R388). -/
theorem test_meets_Release_stop : let L := { launch0 with released := false }; let s := under1 { core0 with mode := .stop true } L
    look s.launches 1 = some L ∧ (∀ e, L.ending = some e → e.status = 7) ∧ (∀ c ∈ L.active, (s.core c).mode = .stop true ∧ (s.core c).waits = []) := by
  intro L s; exact ⟨rfl, fun _ h => (by cases h), by decide⟩
theorem test_meets_Preempt_bad : ∃ va, vaPieces (panel7 [] [run1 (.launch hdr ctxCmd), preRun]) true true 65536 65536
    (areaSize (preLaunch none).cores.length (clustersOf (preLaunch none).cores).length) = .bad va := ⟨_, rfl⟩
/-- Pieces of the area that stand apart have bytes that stand apart. -/
theorem places_nodup {s : State} (h : s.ptes = ptesH) (ps : List (Nat × List Byte)) (hb : ∀ x ∈ ps, x.1 + x.2.length ≤ 2 ^ 25)
    (ha : ps.Pairwise (fun p q => p.1 + p.2.length ≤ q.1)) :
    (ps.flatMap (fun x => (List.range x.2.length).map (fun i => (s.translate (x.1 + i)).map (·.1)))).Nodup := by
  have place : ∀ x ∈ ps, ∀ y ∈ (List.range x.2.length).map (fun i => (s.translate (x.1 + i)).map (·.1)),
      ∃ i, i < x.2.length ∧ y = some (12 * 2 ^ 48 + (x.1 + i)) := by
    intro x mx y my
    obtain ⟨i, hi, rfl⟩ := List.mem_map.mp my
    have hi := List.mem_range.mp hi
    have := hb x mx
    exact ⟨i, hi, by rw [translateH h (by omega)]; rfl⟩
  rw [List.Nodup, List.pairwise_flatMap]
  refine ⟨fun x mx => ?_, (List.Pairwise.imp_of_mem ?_ ha)⟩
  · rw [List.pairwise_map]
    refine List.Pairwise.imp_of_mem ?_ List.pairwise_lt_range
    intro i j mi mj hij e
    have := hb x mx
    rw [translateH h (by have := List.mem_range.mp mi; omega), translateH h (by have := List.mem_range.mp mj; omega)] at e
    simp only [Option.map_some, Option.some.injEq] at e
    omega
  · intro p q mp mq hpq a ma b mb e
    obtain ⟨i, hi, rfl⟩ := place p mp a ma
    obtain ⟨j, hj, rfl⟩ := place q mq b mb
    simp only [Option.some.injEq] at e
    omega
theorem save_places (s : State) (L : Launch) (v : Nat) (h1 : s.ptes = ptesH) (h3 : (s.core 0).logIdx = 0)
    (hcl : clmImages 65536 L = [(0, clmVa 65536 1 0)]) : let hd := headerImage L v s; let im := coreImages 65536 [0] hd.2
    let clms := ((clmImages 65536 L).filter (fun x => x.1 / 8 == 0)).map (fun x => (x.2, s.mem.read (clmBase x.1) (2 ^ 22)))
    (((65536, hd.1) :: im.1 ++ clms).flatMap (fun x => (List.range x.2.length).map (fun i => (s.translate (x.1 + i)).map (·.1)))).Nodup := by
  intro hd im clms
  have hl : (hd.2.core 0).logIdx = 0 := h3
  have hc : clms = [(clmVa 65536 1 0, s.mem.read (clmBase 0) (2 ^ 22))] := by
    simp only [clms, hcl, List.filter_cons, List.filter_nil, Nat.zero_div, BEq.rfl, if_true, List.map_cons, List.map_nil]
  have cv : coreVa 65536 0 = 131072 := by decide
  have i1 : im.1 = (coreImage hd.2 0 131072).1 := by simp only [im, coreImages, List.append_nil, hl, cv]
  rw [hc, i1]
  simp only [coreImage, clmVa]
  refine places_nodup h1 _ ?_ ?_
  · intro x m
    simp only [List.cons_append, List.nil_append, List.mem_cons, List.not_mem_nil, or_false] at m
    rcases m with rfl | rfl | rfl | rfl | rfl | rfl | rfl | rfl <;> simp only [hd, headerImage, fillImage_length, read_length, spSize] <;> omega
  · simp only [List.cons_append, List.nil_append, List.pairwise_cons, List.mem_cons, List.not_mem_nil, or_false, forall_eq_or_imp, forall_eq,
      List.Pairwise.nil, and_true, false_imp_iff, implies_true, hd, headerImage, fillImage_length, read_length, spSize]
    omega
theorem test_meets_ContextSave_places (v : Nat) : let L := preLaunch (some (0, 1)); let hd := headerImage L v stopS; let im := coreImages 65536 [0] hd.2
    let clms := ((clmImages 65536 L).filter (fun x => x.1 / 8 == 0)).map (fun x => (x.2, stopS.mem.read (clmBase x.1) (2 ^ 22)))
    (((65536, hd.1) :: im.1 ++ clms).flatMap (fun x => (List.range x.2.length).map (fun i => (stopS.translate (x.1 + i)).map (·.1)))).Nodup :=
  save_places stopS (preLaunch (some (0, 1))) v rfl rfl rfl
/-- Its spire is the launch's last, and the LAUNCH and the PREEMPT stand in their queue. -/
theorem test_meets_ContextSave_launch : let L := preLaunch (some (0, 1))
    look stopS.launches 1 = some L ∧ (spiresOf L).all (fun x => x == 0 || L.saved.contains x) = true ∧
    (spiresOf { L with cores := [0, 64] }).all (fun x => x == 0 || L.saved.contains x) = false ∧
    Started stopS L.hdr (run1 (.launch hdr ctxCmd)) ∧ L.preempt = some (0, 1) ∧ stopS.runOf 0 1 = some preRun := by decide
/-- A wait for a counter that is poisoned. -/
theorem test_meets_Waitev_bad : let s := { cmdS [] (.waitev hdr ⟨8, 1⟩) with poison := [2 ^ 20] }
    Started s hdr (run1 (.waitev hdr ⟨8, 1⟩)) ∧ (2 ^ 20 + 8) % 8 = 0 ∧ s.mustWait whoFirm (2 ^ 20 + 8) 8 = false ∧ s.badRead (2 ^ 20 + 8) 8 = true := by
  decide
/-- A page after its recall that a cluster holds again, one whose recall is not over, and one that nothing holds. -/
def heldPage (l : List TlbEntry) (r : List Recall) : State := { pagesS page0 true with clusters := [(0, { tlb := l, watches := [] })], recalls := r }
theorem test_meets_Unmap_held :
    (recallsOver (heldPage [tlbE false] []) [leaf0] = true ∧ holdersOf (heldPage [tlbE false] []) leaf0.pa leaf0.large ≠ [] ∧
      leafAt (heldPage [tlbE false] []) 0 false = some leaf0) ∧
    recallsOver (heldPage [] [{ page := 2 ^ 20, large := false, holders := [0] }]) [leaf0] = false ∧
    holdersOf (heldPage [] []) leaf0.pa leaf0.large = [] := by decide
theorem test_meets_Migrate_blocks : ∀ b ∈ pageBlocks leaf0, (pagesS page0 true).donatedAt b = false ∧ (pagesS page0 true).mustWait whoFirm b 256 = false := by
  decide +kernel
/-- A range of a BALLOON at the capacity and past it; a page that the dome's list holds twice over. -/
theorem test_meets_Balloon_lease : let s := balloonS [3]
    let l : Lease := { page := 3 * 65536, large := false, cluster := 0, pinned := false, granted := 0 }
    let t := { s with domes := [(0, { dome0 with balloon := [3], want := [wantW], poolFree := 300, leases := [l] })] }
    takeable t 0 3 = false ∧ (∀ l ∈ (t.dome 0).leases, inPage l.page l.large (0 * 2 ^ 37 + 3 * 65536) = true) ∧ (t.dome 0).waiting = wantW :: [] := by decide

/-! Writes that wait, what a lost link and an abandoned write end. -/

theorem test_meets_HostWrites_own : ∃ s', homeWrite (panel7 [] []) whoFirm (.access (panel7 [] []).nextId) (2 ^ 20) (toBytes 1 8) false = .ok s' :=
  homeOk_of (by decide)
/-- At stage 6 queue 0 has its leader; its header reads, or its page is being moved. -/
def bootS (m : Memory) (p : List (Nat × W64)) : State := { panel7 m [] with fw := { fw7 with stage := 6 }, ptes := p }
theorem test_meets_Bootctl_headers :
    leaderOf (bootS (qmem 1) ptes0) 0 = some 0 ∧ headerGot (bootS (qmem 1) ptes0) 0 = .ok (qhdrBytes 1) ∧ (qhdrOf (qhdrBytes 1)).isSome = true ∧
    headerGot (bootS (qmem 1) ((0x3000, 2 ^ 20 + 0x1F) :: ptes0)) 0 = .wait := ⟨by decide, rfl, by decide, rfl⟩
theorem test_meets_Attest_jobs : (panel7 [] []).fw.attJobs = [] ∧ { fw7 with attJobs := [5] }.attJobs ≠ [] := by decide
/-- A request that has arrived at the queue's header, and one at the next slot of its ring. -/
def noteBusy (a : Nat) : State := { noteS 1 with now := 5, reqs := [{ acc0 with pa := a, came := some 3 }] }
theorem test_meets_Notifications_claim : ∃ s', homeWrite (noteBusy (2 ^ 20 + 0x100)) whoFirm (.firm ((noteHdr1 1).pa + 12)) ((noteHdr1 1).pa + 12) (toBytes 2 4) false =
    .wait s' := homeWait_of (by decide +kernel)
def thenWaits (r : HomeRes) (f : State → HomeRes) : Bool :=
  match r with
  | .ok s => (match f s with | .wait _ => true | _ => false)
  | _ => false
theorem thenWaits_of {r : HomeRes} {f : State → HomeRes} (h : thenWaits r f = true) : ∃ s₁ s₂, r = .ok s₁ ∧ f s₁ = .wait s₂ := by
  cases r with
  | ok s => obtain ⟨u, hu⟩ := homeWait_of h; exact ⟨s, u, rfl, hu⟩
  | wait _ => cases h
  | err _ => cases h
theorem test_meets_Notifications_slot : ∃ s₁ s₂,
    homeWrite (noteBusy slotAt) whoFirm (.firm ((noteHdr1 1).pa + 12)) ((noteHdr1 1).pa + 12) (toBytes 2 4) false = .ok s₁ ∧
    homeWrite s₁ whoFirm (.firm slotAt) slotAt (toBytes 2 32) false = .wait s₂ := thenWaits_of (by decide +kernel)
/-- A write of a copy engine that is held, and a report that is. -/
def leftOut : CopyOut := { tag := 3, slot := .ca, deadline := 0, group := [(2 ^ 20, [1])] }
def abandonS (w : Writer) (l : List (BitVec 64)) : State :=
  { on { core0 with eng0 := { core0.eng0 with left := [leftOut] } } with
    domes := [(0, { dome0 with held := [heldW w] })], now := 800000, fw := { fw7 with attJobs := l, attStat := 1 } }
theorem test_meets_Abandons_copy : let s := abandonS (.copy 0 0) []
    (s.dome 0).held.find? (fun h => h.since + 800000 ≤ s.now) = some (heldW (.copy 0 0)) ∧ (heldW (.copy 0 0)).who = .copy 0 0 ∧ (s.eng 0 0).left = leftOut :: [] := by
  decide
theorem test_meets_Abandons_report : let s := abandonS (.firm (2 ^ 20)) [1048576]
    (s.dome 0).held.find? (fun h => h.since + 800000 ≤ s.now) = some (heldW (.firm (2 ^ 20))) ∧ s.fw.attJobs = [1048576] ∧ (1048576 : BitVec 64).toNat = 2 ^ 20 := by
  decide
/-- A fill of core 0 that stands at a page of peer 3. -/
def peerFill : State := { fillS [] [(0, 0x4001), (0x4000, 0x2001), (0x2000, 0xE300000000000 + 0xF)] with fw := { fw7 with portUp := [(3, true)] } }
theorem test_meets_Peers_refuse : fillAt peerFill 3 0 = true ∧ fillAt peerFill 4 0 = false ∧ (3 : Nat) < 16 := by decide
/-- What stands at peer 3 when its link is lost. -/
theorem test_meets_Peers_lost : let x := { acc0 with pa := 0xE300000000000 }
    let s := { peerFill with reqs := [x], clusters := [(1027, { tlb := [], watches := [⟨waitA⟩] })] }
    lookD s.fw.portUp 3 false = true ∧ ofSlot 3 x.pa = true ∧ x.src ≠ .peer 3 ∧ (∃ h ∈ (s.cluster 1027).watches, h.acc.src ≠ .peer 3) :=
  ⟨by decide, by decide, by decide, ⟨waitA⟩, by decide, by decide⟩

end Sys2Proof.Tests
end

section
/-! PROOFS. Scalar arithmetic with two sources and the scalar compares (R113, R114, R116): the slots' effects, said once for
every row of their tables, and the statements about division and compares. -/

namespace Sys2Proof.Proofs

open Sys2Proof.Machine Sys2Proof.Claims Sys2Proof.Laws

/-! ## What a read leaves of an agent's program order -/

/-- An update of one core that keeps its next serial number keeps that of every core. -/
theorem core_nextSer_modCore (s : State) (c d : Nat) (f : Core → Core) (h : ∀ k, (f k).nextSer = k.nextSer) :
    ((s.modCore c f).core d).nextSer = (s.core d).nextSer := by
  by_cases e : c = d
  · subst e; rw [core_modCore, h]
  · rw [core_modCore_ne s f e]

/-- An update of one pair that keeps its next serial number keeps that of every pair. -/
theorem pair_nextSer_modPair (s : State) (p d : Nat) (f : Pair → Pair) (h : ∀ k, (f k).nextSer = k.nextSer) :
    ((s.modPair p f).pair d).nextSer = (s.pair d).nextSer := by
  by_cases e : p = d
  · subst e; rw [pair_modPair, h]
  · rw [State.modPair, pair_setPair_ne s _ e]

theorem modCore_serial (s : State) (c : Nat) (f : Core → Core) (h : ∀ k, (f k).nextSer = k.nextSer) :
    (s.modCore c f).serial = s.serial := by
  simp only [State.serial, modCore_cur]
  cases s.cur.agent with
  | core d => exact core_nextSer_modCore s c d f h
  | lanA p => rfl
  | lanE p => rfl

theorem modPair_serial (s : State) (p : Nat) (f : Pair → Pair) (h : ∀ k, (f k).nextSer = k.nextSer) :
    (s.modPair p f).serial = s.serial := by
  simp only [State.serial, modPair_cur]
  cases s.cur.agent with
  | core d => rfl
  | lanA d => exact pair_nextSer_modPair s p d f h
  | lanE d => exact pair_nextSer_modPair s p d f h

/-- The serial number of the bundle at hand is no part of a sequencer. -/
@[simp] theorem modSeq_serial (s : State) (a : Agent) (f : Seq → Seq) : (s.modSeq a f).serial = s.serial := by
  cases a with
  | core c => exact modCore_serial s c _ fun _ => rfl
  | lanA p => exact modPair_serial s p _ fun _ => rfl
  | lanE p => exact modPair_serial s p _ fun _ => rfl

/-- A queue read that gives a value leaves the state as it was, or with other entries in its queue. -/
theorem readQueue_got {s t : State} {a : Agent} {pos : Pos} {q : QName} {pk : Bool} {v : V512}
    (h : readQueue s a pos q pk = .got v t) : t = s ∨ ∃ rest, t = s.setEntries a q rest := by
  unfold readQueue at h
  repeat' split at h
  all_goals cases h
  · exact .inl rfl
  · exact .inr ⟨_, rfl⟩

/-- A stream read that gives a value only advances the stream. -/
theorem readStream_got {s t : State} {a : Agent} {pos : Pos} {n : Nat} {ty : BitVec 4} {v : V512}
    (h : readStream s a pos n ty = .got v t) :
    ∃ g : Stream, t = s.modCore (coreOf a) (fun k => { k with streams := put k.streams n g }) := by
  simp only [readStream] at h
  repeat' split at h
  all_goals cases h
  exact ⟨_, rfl⟩

theorem readQueue_keeps_serial {s t : State} {a : Agent} {pos : Pos} {q : QName} {pk : Bool} {v : V512}
    (h : readQueue s a pos q pk = .got v t) : t.serial = s.serial := by
  obtain rfl | ⟨rest, rfl⟩ := readQueue_got h
  · rfl
  · exact modSeq_serial s _ _

theorem readStream_keeps_serial {s t : State} {a : Agent} {pos : Pos} {n : Nat} {ty : BitVec 4} {v : V512}
    (h : readStream s a pos n ty = .got v t) : t.serial = s.serial := by
  obtain ⟨g, rfl⟩ := readStream_got h
  exact modCore_serial s _ _ fun _ => rfl

/-- A vector operand is read from a queue, from a stream, or is a constant (R133). -/
theorem readSrc_keeps_serial {s t : State} {a : Agent} {pos : Pos} {x : Src} {v : V512}
    (h : readSrc s a pos x = .got v t) : t.serial = s.serial := by
  cases x with
  | x n pk => exact readQueue_keeps_serial h
  | v o =>
    simp only [readSrc] at h
    split at h
    · cases hq : readQueue s a pos ⟨.v, o.code.toNat⟩ o.peek <;> simp only [hq] at h <;> cases h
      exact readQueue_keeps_serial hq
    split at h
    · cases hq : readStream s a pos (o.code.toNat - 1536) o.ty <;> simp only [hq] at h <;> cases h
      exact readStream_keeps_serial hq
    split at h
    · cases hq : readQueue s a pos (s.xq a (o.code.toNat - 1600)) o.peek <;> simp only [hq] at h <;> cases h
      exact readQueue_keeps_serial hq
    · cases h; rfl

theorem readSrcs_keeps_serial (a : Agent) (pos : Pos) (l : List Src) : ∀ {s t : State} {acc vs : List V512},
    readSrcs a pos l s acc = .ok (vs, t) → t.serial = s.serial := by
  induction l with
  | nil => intro s t acc vs h; cases h; rfl
  | cons x l ih =>
    intro s t acc vs h
    simp only [readSrcs] at h
    cases hr : readSrc s a pos x with
    | got v s' => simp only [hr] at h; exact (ih h).trans (readSrc_keeps_serial hr)
    | fault c f => simp [hr] at h
    | waits => simp [hr] at h

/-! ## A slot that writes one plain register -/

theorem serial_with_cur {s : State} {c : Cur} (h : c.agent = s.cur.agent) : { s with cur := c }.serial = s.serial := by
  simp only [State.serial, h]
  cases s.cur.agent <;> rfl

/-- Scheduling a plain write looks at the agent of the bundle at hand and at none of the bundle's other notes. -/
theorem scheduleNow_with_cur {s : State} {c : Cur} (h : c.agent = s.cur.agent) (pos : Pos) (due : Nat) (wr : RegWr) :
    scheduleNow { s with cur := c } pos due wr = { scheduleNow s pos due wr with cur := c } := by
  simp only [scheduleNow, serial_with_cur h, h]
  exact modSeq_with_cur s c _ _

/-- A slot that writes one plain register. -/
theorem runSlot_reg {p : Pre} {plan : State → Plan} {s t : State} {vs : List V512} {due : Nat} {wr : RegWr}
    (al : s.Alone) (tr : slotTrue p (plan s).lane s = true) (rd : ReadsTo p (plan s).srcs s vs t)
    (ac : (plan s).act vs = Act.reg p.pos due wr) :
    runSlot p plan s = schedule t s.cur.agent (plainWrite s p due wr) := by
  have hc : t.cur = s.cur := readSrcs_keeps_cur _ _ _ rd
  have hs : t.serial = s.serial := readSrcs_keeps_serial _ _ _ rd
  calc runSlot p plan s = scheduleNow t p.pos due wr :=
        runSlot_eff al tr rd ac (fun _ _ => scheduleNow_with_cur (by rw [hc]) _ _ _) (modSeq_cur t _ _)
    _ = schedule t s.cur.agent (plainWrite s p due wr) := by rw [scheduleNow, hc, hs]

/-! ## The slots of formats S3 and SQ -/

/-- The low w bits of a source as the model reads them are those that the statements name. -/
theorem srcN_first (w : Nat) (a b : V512) : srcN w [a, b] 0 = low w a := by
  simp [srcN, lowBits, toX, low]

theorem srcN_second (w : Nat) (a b : V512) : srcN w [a, b] 1 = low w b := by
  simp [srcN, lowBits, toX, low]

/-- R113: a three-operand form pushes its result, computed on the low w bits of its sources and extended. -/
theorem runS3_pushes {i : Instr} {p : Pre} {f : FmtS3} {L : Nat} {sgn : Bool} {g : Nat → Nat → Nat → Int} {s t : State}
    {a b : V512} (he : exec i s = .next (runS3 p f L sgn g s))
    (hr : Ready p 0 [.x f.xa.toNat f.pa, .x f.xb.toNat f.pb] s [a, b] t) :
    Pushes i s t (xq s f.xd) (s.at + L)
      (toV (extend sgn (opWidth f.sz) (g (opWidth f.sz) (low (opWidth f.sz) a) (low (opWidth f.sz) b)))) := by
  obtain ⟨al, tr, rd⟩ := hr
  intro id u room
  rw [he, runS3, runSlot_push al tr rd (by simp only [srcN_first, srcN_second]; rfl) room]

/-- R116: a compare writes the flag of its relation on the low w bits of its sources into pd. -/
theorem runSQ_writes {i : Instr} {p : Pre} {f : FmtSQ} {g : Nat → Nat → Nat → Bool} {s t : State} {a b : V512}
    (he : exec i s = .next (runSQ p f g s)) (hr : Ready p 0 [.x f.xa.toNat f.pa, .x f.xb.toNat f.pb] s [a, b] t) :
    Writes i p s t (s.at + 1)
      (.pred f.pd.toNat (flagAll (g (opWidth f.sz) (low (opWidth f.sz) a) (low (opWidth f.sz) b)))) := by
  obtain ⟨al, tr, rd⟩ := hr
  rw [Writes, he, runSQ, runSlot_reg al tr rd (by simp only [srcN_first, srcN_second]; rfl)]

/-! ## Compares (R116) -/

theorem exec_cmpeq (p : Pre) (f : FmtSQ) (s : State) : exec (.cmpeq p f) s = .next (runSQ p f (fun _ a b => a == b) s) := rfl
theorem exec_cmpne (p : Pre) (f : FmtSQ) (s : State) : exec (.cmpne p f) s = .next (runSQ p f (fun _ a b => a != b) s) := rfl
theorem exec_cmplt (p : Pre) (f : FmtSQ) (s : State) :
    exec (.cmplt p f) s = .next (runSQ p f (fun w a b => decide (asInt true w a < asInt true w b)) s) := rfl
theorem exec_cmple (p : Pre) (f : FmtSQ) (s : State) :
    exec (.cmple p f) s = .next (runSQ p f (fun w a b => decide (asInt true w a ≤ asInt true w b)) s) := rfl
theorem exec_cmpltn (p : Pre) (f : FmtSQ) (s : State) :
    exec (.cmpltn p f) s = .next (runSQ p f (fun _ a b => decide (a < b)) s) := rfl
theorem exec_cmplen (p : Pre) (f : FmtSQ) (s : State) :
    exec (.cmplen p f) s = .next (runSQ p f (fun _ a b => decide (a ≤ b)) s) := rfl

/-- The instruction of a compare row decides the row's relation: its flag is g, which holds exactly where the relation does. -/
def DecidesRow (r : SQRow) : Prop :=
  ∃ g : Nat → Nat → Nat → Bool, (∀ p f s, exec (r.ins p f) s = .next (runSQ p f g s)) ∧ ∀ w a b, g w a b = true ↔ r.rel w a b

theorem sqRows_decide : ∀ r ∈ sqRows, DecidesRow r := by
  simp only [sqRows, List.forall_mem_cons]
  refine ⟨⟨_, exec_cmpeq, ?_⟩, ⟨_, exec_cmpne, ?_⟩, ⟨_, exec_cmplt, ?_⟩, ⟨_, exec_cmple, ?_⟩, ⟨_, exec_cmpltn, ?_⟩,
    ⟨_, exec_cmplen, ?_⟩, ?_⟩
  all_goals simp

/-! ## Division (R114) -/

theorem exec_div (p : Pre) (f : FmtS3) (s : State) :
    exec (.div p f) s = .next (runS3 p f 20 true (fun w a b => divT w (asInt true w a) (asInt true w b)) s) := rfl
theorem exec_divn (p : Pre) (f : FmtS3) (s : State) :
    exec (.divn p f) s = .next (runS3 p f 20 false (fun w a b => divT w a b) s) := rfl
theorem exec_rem (p : Pre) (f : FmtS3) (s : State) :
    exec (.rem p f) s = .next (runS3 p f 20 true (fun w a b => remT (asInt true w a) (asInt true w b)) s) := rfl
theorem exec_remn (p : Pre) (f : FmtS3) (s : State) :
    exec (.remn p f) s = .next (runS3 p f 20 false (fun _ a b => remT a b) s) := rfl

@[simp] theorem divT_zero (w : Nat) (a : Int) : divT w a 0 = 2 ^ w - 1 := by simp [divT]
@[simp] theorem remT_zero (a : Int) : remT a 0 = a := by simp [remT]
theorem divT_of_ne_zero (w : Nat) (a : Int) {b : Int} (h : b ≠ 0) : divT w a b = a.tdiv b := by simp [divT, h]
theorem remT_of_ne_zero (a : Int) {b : Int} (h : b ≠ 0) : remT a b = a.tmod b := by simp [remT, h]

@[simp] theorem asInt_zero (sgn : Bool) (w : Nat) : asInt sgn w 0 = 0 := by simp [asInt]

theorem opWidth_pos (sz : BitVec 2) : 0 < opWidth sz := by revert sz; decide

/-- A result is pushed modulo 2^w (R111). -/
theorem extend_add_two_pow (sgn : Bool) (w : Nat) (v : Int) : extend sgn w (v + 2 ^ w) = extend sgn w v := by
  have residue : wrapN (v + 2 ^ w) w = wrapN v w := by
    rw [wrapN, wrapN, Int.natCast_pow, Int.cast_ofNat_Int, Int.add_emod_right]
  rw [extend, extend, residue]

/-- All ones, as a w-bit result, is −1. -/
theorem extend_all_ones (sgn : Bool) (w : Nat) : extend sgn w (2 ^ w - 1) = extend sgn w (-1) := by
  have shift : (2 : Int) ^ w - 1 = -1 + 2 ^ w := by omega
  rw [shift, extend_add_two_pow]

/-- At width w the number 2^(w−1) wraps to its negative. -/
theorem extend_top_bit (sgn : Bool) {w : Nat} (h : 0 < w) : extend sgn w (2 ^ (w - 1)) = extend sgn w (-2 ^ (w - 1)) := by
  obtain ⟨n, rfl⟩ : ∃ n, w = n + 1 := ⟨w - 1, by omega⟩
  have shift : (2 : Int) ^ n = -2 ^ n + 2 ^ (n + 1) := by rw [Int.pow_succ]; omega
  calc extend sgn (n + 1) (2 ^ n) = extend sgn (n + 1) (-2 ^ n + 2 ^ (n + 1)) := by rw [← shift]
    _ = extend sgn (n + 1) (-2 ^ n) := extend_add_two_pow sgn (n + 1) _

theorem tmod_nonpos {a : Int} (b : Int) (h : a ≤ 0) : a.tmod b ≤ 0 := by
  have := Int.tmod_nonneg b (Int.neg_nonneg_of_nonpos h)
  rw [Int.neg_tmod] at this
  omega

theorem natAbs_tmod_lt (a : Int) {b : Int} (h : b ≠ 0) : (a.tmod b).natAbs < b.natAbs := by
  rw [Int.natAbs_tmod]
  exact Nat.mod_lt _ (Int.natAbs_pos.2 h)

section
variable {p : Pre} {f : FmtS3} {s t : State} {a b : V512}

/-- DIV and REM by a divisor other than 0. -/
theorem signed_division (hr : Ready p 0 [.x f.xa.toNat f.pa, .x f.xb.toNat f.pb] s [a, b] t)
    (h : asInt true (opWidth f.sz) (low (opWidth f.sz) b) ≠ 0) :
    let w := opWidth f.sz
    let A := asInt true w (low w a)
    let B := asInt true w (low w b)
    Pushes (.div p f) s t (xq s f.xd) (s.at + 20) (toV (extend true w (A.tdiv B))) ∧
      Pushes (.rem p f) s t (xq s f.xd) (s.at + 20) (toV (extend true w (A.tmod B))) := by
  have hd := runS3_pushes (exec_div p f s) hr
  have hm := runS3_pushes (exec_rem p f s) hr
  rw [divT_of_ne_zero _ _ h] at hd
  rw [remT_of_ne_zero _ h] at hm
  exact ⟨hd, hm⟩

/-- DIVN and REMN by a divisor other than 0. -/
theorem unsigned_division (hr : Ready p 0 [.x f.xa.toNat f.pa, .x f.xb.toNat f.pb] s [a, b] t)
    (h : low (opWidth f.sz) b ≠ 0) :
    let w := opWidth f.sz
    Pushes (.divn p f) s t (xq s f.xd) (s.at + 20) (toV (extend false w (low w a / low w b : Nat))) ∧
      Pushes (.remn p f) s t (xq s f.xd) (s.at + 20) (toV (extend false w (low w a % low w b : Nat))) := by
  have hd := runS3_pushes (exec_divn p f s) hr
  have hm := runS3_pushes (exec_remn p f s) hr
  rw [divT_of_ne_zero _ _ (Int.natCast_ne_zero.2 h), ← Int.ofNat_tdiv] at hd
  rw [remT_of_ne_zero _ (Int.natCast_ne_zero.2 h), ← Int.ofNat_tmod] at hm
  exact ⟨hd, hm⟩

/-- The row b = 0 of R114's table. -/
theorem division_by_zero (hr : Ready p 0 [.x f.xa.toNat f.pa, .x f.xb.toNat f.pb] s [a, b] t)
    (h : low (opWidth f.sz) b = 0) :
    let w := opWidth f.sz
    Pushes (.div p f) s t (xq s f.xd) (s.at + 20) (toV (extend true w (-1))) ∧
      Pushes (.rem p f) s t (xq s f.xd) (s.at + 20) (toV (extend true w (asInt true w (low w a)))) ∧
      Pushes (.divn p f) s t (xq s f.xd) (s.at + 20) (toV (extend false w (2 ^ w - 1 : Nat))) ∧
      Pushes (.remn p f) s t (xq s f.xd) (s.at + 20) (toV (extend false w (low w a : Nat))) := by
  have hd := runS3_pushes (exec_div p f s) hr
  have hm := runS3_pushes (exec_rem p f s) hr
  have hdn := runS3_pushes (exec_divn p f s) hr
  have hmn := runS3_pushes (exec_remn p f s) hr
  rw [h, asInt_zero, divT_zero, extend_all_ones] at hd
  rw [h, asInt_zero, remT_zero] at hm
  rw [h, Int.natCast_zero, divT_zero] at hdn
  rw [h, Int.natCast_zero, remT_zero] at hmn
  refine ⟨hd, hm, ?_, hmn⟩
  rwa [Int.natCast_sub Nat.one_le_two_pow, Int.natCast_pow]

end

/-- Settles O1: quotient and remainder are `Int.tdiv` and `Int.tmod` of the operands' values; the quotient 2^(w−1) of the most
negative value by −1 wraps, and division by 0 is the first row of the rule's table. -/
theorem divisionTruncatesWithFixedLimits : Obligations.DivisionTruncatesWithFixedLimits := by
  intro p f s t a b ready w A B
  refine ⟨fun hB => ?_, fun hb => ?_, division_by_zero ready⟩
  · obtain ⟨hd, hm⟩ := signed_division ready hB
    refine ⟨A.tdiv B, A.tmod B, hd, hm, (Int.mul_tdiv_add_tmod A B).symm, natAbs_tmod_lt A hB, Int.tmod_nonneg B,
      tmod_nonpos B, fun least minusOne => ?_⟩
    rw [least, minusOne]
    refine ⟨?_, by simp⟩
    rw [Int.tdiv_neg, Int.tdiv_one, Int.neg_neg]
    exact extend_top_bit true (opWidth_pos f.sz)
  · obtain ⟨hd, hm⟩ := unsigned_division ready hb
    exact ⟨_, _, hd, hm, (Nat.div_add_mod _ _).symm, Nat.mod_lt _ (Nat.pos_of_ne_zero hb)⟩

/-- Settles O2: every row's instruction writes the flag of a Boolean that decides the row's relation. -/
theorem scalarComparesSetOrClearPd : Obligations.ScalarComparesSetOrClearPd := by
  intro r hr p f s t a b ready
  obtain ⟨g, ex, dec⟩ := sqRows_decide r hr
  have wr := runSQ_writes (ex p f s) ready
  constructor
  · intro holds
    rwa [(dec _ _ _).2 holds] at wr
  · intro fails
    rwa [Bool.eq_false_iff.2 fun h => fails ((dec _ _ _).1 h)] at wr

end Sys2Proof.Proofs
end
